-- ==== Sys2Proof/Word.lean ====
section
/-! DEFINITION. The word types of the core and their plainest arithmetic (00_scope.md R12, R13, R15). -/

namespace Sys2Proof

/-- A field element, and a byte of BUF (R13, R15). -/
abbrev Byte := BitVec 8

/-- A bus word, a register as the host sees it, a command word (R31, R120). -/
abbrev Word := BitVec 32

end Sys2Proof
end

