-- ==== Sys2Proof/Config.lean ====
section
/-! DEFINITION. What an instance of the core fixes (00_scope.md R9), and the free values: constants with no body,
which stand for what the spec leaves unspecified (93_implementation_defined.md part 2). -/

namespace Sys2Proof

/-- The parameters of R9, fixed for the lifetime of an instance (I9). ADDR_W has the one legal value 16 and is the width of
an offset below; LAT is drawn command by command (R380; log 3). -/
structure Build where
  /-- BUF_BYTES: size of the block buffer in bytes. -/
  bufBytes : Nat
  /-- NPAR_MAX: the largest NPAR the arrays hold. -/
  nparMax : Nat
  /-- BLK_MAX: the size of BSTAT, and the largest number of blocks of a DECODE.BUF. -/
  blkMax : Nat
  /-- BASE: where the core's window begins in the host's address space, any address (R9, R32, R98, I8). -/
  base : Nat
deriving DecidableEq, Repr

namespace Build

/-- The legal values of R9. BASE is the platform's: every value is legal. -/
def legal (b : Build) : Bool :=
  b.bufBytes % 4 == 0 && decide (256 ≤ b.bufBytes) && decide (b.bufBytes ≤ 49152) &&
  (b.nparMax % 2 == 0 && decide (2 ≤ b.nparMax) && decide (b.nparMax ≤ 254)) &&
  (decide (1 ≤ b.blkMax) && decide (b.blkMax ≤ 256))

/-- The defaults of R9. BASE is OPEN there and is 0 here (log 9: DESIGN CHOICE). -/
def default : Build := { bufBytes := 4096, nparMax := 32, blkMax := 256, base := 0 }

end Build

/-- A byte offset from BASE: ADDR_W = 16 bits (R9, R90). -/
abbrev Addr := BitVec 16

/-- An unspecified byte (R72, I1, I2): element `index` of the draw numbered `draw`. Nothing constrains it. -/
opaque Config.freeByte (draw index : Nat) : Byte

/-- An unspecified 32-bit word (R102, I3, I5): element `index` of the draw numbered `draw`. Nothing constrains it. -/
opaque Config.freeWord (draw index : Nat) : Word

end Sys2Proof
end

