-- ==== Sys2Proof/Syntax.lean ====
section
/-! DEFINITION. The 14 commands of the opcode table (30_encoding.md R125) as one inductive, and the assembler's
statements (R129, R130), whose literals are numbers of any size. -/

namespace Sys2Proof

/-- A command. `a`, `b` are field elements, `e` an unsigned exponent, `blk` a block index (R124); each has exactly the
width of its field in the command word, so a command that does not fit its word cannot be written down. -/
inductive Instr where
  | nop
  | init
  | gfAdd (a b : Byte)
  | gfMul (a b : Byte)
  | gfDiv (a b : Byte)
  | gfInv (a : Byte)
  | gfPow (a e : Byte)
  | synd (blk : BitVec 16)
  | bm
  | chien
  | forney
  | correct (blk : BitVec 16)
  | decodeBlk (blk : BitVec 16)
  | decodeBuf
deriving DecidableEq, Repr

/-- The three formats of a command word (R121, R122, R123). -/
inductive Format where
  | n
  | g
  | b
deriving DecidableEq, Repr

/-- The format of each command, by R121, R122 and R123. -/
def Instr.format : Instr → Format
  | .nop | .init | .bm | .chien | .forney | .decodeBuf => .n
  | .gfAdd _ _ | .gfMul _ _ | .gfDiv _ _ | .gfInv _ | .gfPow _ _ => .g
  | .synd _ | .correct _ | .decodeBlk _ => .b

/-- The register names of R32. An array's or table's name takes an element, `BUF` the number of a word (R93): `buf 0` is
the name alone. -/
inductive RegName where
  | id
  | cmd
  | status
  | err
  | intStat
  | intEn
  | cfgN
  | cfgNpar
  | cfgPrim
  | cfgFcr
  | bufLen
  | result
  | locL
  | nroots
  | ncorr
  | totalCorr
  | nfail
  | nblk
  | syn (j : Nat)
  | lambda (i : Nat)
  | omega (i : Nat)
  | gen (i : Nat)
  | root (k : Nat)
  | posn (k : Nat)
  | mag (k : Nat)
  | exp (i : Nat)
  | log (i : Nat)
  | bstat (b : Nat)
  | buf (w : Nat)
deriving DecidableEq, Repr

/-- The `reg` of WR and RD: "a register name of 10_state.md rule R32 or an offset" (R129). -/
inductive Reg where
  | name (r : RegName)
  | offset (off : Nat)
deriving DecidableEq, Repr

/-- A statement of a host program as the assembler reads it (R129), the pseudo-instructions of R130 included. Operands
are integer literals, not yet checked against the fields they go to. -/
inductive Stmt where
  | nop
  | init
  | gfAdd (a b : Nat)
  | gfMul (a b : Nat)
  | gfDiv (a b : Nat)
  | gfInv (a : Nat)
  | gfPow (a e : Nat)
  | synd (blk : Nat)
  | bm
  | chien
  | forney
  | correct (blk : Nat)
  | decodeBlk (blk : Nat)
  | decodeBuf
  /-- `WR reg, v`. -/
  | wr (reg : Reg) (v : Nat)
  /-- `RD reg`. -/
  | rd (reg : Reg)
  | wait
  | gfSub (a b : Nat)
  | gfSqr (a : Nat)
  | gfAlpha (e : Nat)
  | clrErr
  | decodeSteps (blk : Nat)
deriving DecidableEq, Repr

end Sys2Proof
end

