-- ==== Sys2Proof/WellFormed.lean ====
section
/-! DEFINITION. Which assembler statements are well formed: "An assembler refuses a literal that does not fit its
field" (30_encoding.md R129). An `Instr` needs no check: its operands have the widths of their fields. -/

namespace Sys2Proof

/-- A literal fits a field of `bits` bits. -/
def fits (bits v : Nat) : Bool := decide (v < 2 ^ bits)

/-- An element lies in its name's window of 0x400 bytes, a BUF word below 2^ADDR_W (R32). -/
def RegName.wf : RegName → Bool
  | .id | .cmd | .status | .err | .intStat | .intEn | .cfgN | .cfgNpar | .cfgPrim | .cfgFcr | .bufLen | .result | .locL
  | .nroots | .ncorr | .totalCorr | .nfail | .nblk => true
  | .syn e | .lambda e | .omega e | .gen e | .root e | .posn e | .mag e | .exp e | .log e | .bstat e => fits 8 e
  | .buf w => decide (w < 12288)

/-- A register name has its element, an offset fits ADDR_W = 16 bits (R90). -/
def Reg.wf : Reg → Bool
  | .name r => r.wf
  | .offset off => fits 16 off

/-- Every literal of a statement fits its field: a, b and e have 8 bits, blk 16 (R122, R123), a register as above,
and a bus word has 32 (R31). -/
def Stmt.wf : Stmt → Bool
  | .nop | .init | .bm | .chien | .forney | .decodeBuf | .wait | .clrErr => true
  | .gfAdd a b | .gfMul a b | .gfDiv a b | .gfPow a b | .gfSub a b => fits 8 a && fits 8 b
  | .gfInv a | .gfSqr a | .gfAlpha a => fits 8 a
  | .synd blk | .correct blk | .decodeBlk blk | .decodeSteps blk => fits 16 blk
  | .wr reg v => reg.wf && fits 32 v
  | .rd reg => reg.wf

end Sys2Proof
end

