-- ==== Sys2Proof/Decode.lean ====
section
/-! DEFINITION. The command decoder, total on all 2^32 words (30_encoding.md R120 to R128), and after it the encoder,
written from the same tables (R121 to R125). -/

namespace Sys2Proof

/-- Why a word is illegal, in the order of R128's checks. -/
inductive DecodeError where
  /-- OPC is not in the table of R125. -/
  | reservedOpcode
  /-- w[31:8] of a format N word, or w[31:24] of a format G or B word, is not 0. -/
  | reservedField
  /-- w[23:16] of a GF.INV word is not 0. -/
  | invOperand
deriving DecidableEq, Repr

/-- OPC = w[7:0] (R120). -/
def fieldOpc (w : Word) : Byte := w.extractLsb' 0 8

/-- A = w[15:8] (R122, R124). -/
def fieldA (w : Word) : Byte := w.extractLsb' 8 8

/-- B = w[23:16] (R122, R124). -/
def fieldB (w : Word) : Byte := w.extractLsb' 16 8

/-- BLK = w[23:8] (R123, R124). -/
def fieldBlk (w : Word) : BitVec 16 := w.extractLsb' 8 16

/-- The reserved bits RSV of a format: w[31:8] for N, w[31:24] for G and B (R121 to R123). -/
def fieldRsv (f : Format) (w : Word) : Nat :=
  match f with
  | .n => (w.extractLsb' 8 24).toNat
  | .g => (w.extractLsb' 24 8).toNat
  | .b => (w.extractLsb' 24 8).toNat

/-- The opcode map of R125: the command an opcode selects, with the operands of its word. -/
def opcodeMap (opc : Byte) (a b : Byte) (blk : BitVec 16) : Option Instr :=
  match opc.toNat with
  | 0x00 => some .nop
  | 0x01 => some .init
  | 0x10 => some (.gfAdd a b)
  | 0x11 => some (.gfMul a b)
  | 0x12 => some (.gfDiv a b)
  | 0x13 => some (.gfInv a)
  | 0x14 => some (.gfPow a b)
  | 0x20 => some (.synd blk)
  | 0x21 => some .bm
  | 0x22 => some .chien
  | 0x23 => some .forney
  | 0x24 => some (.correct blk)
  | 0x30 => some (.decodeBlk blk)
  | 0x31 => some .decodeBuf
  | _ => none

/-- The decoder: R128's checks in R128's order. -/
def decode (w : Word) : Except DecodeError Instr :=
  match opcodeMap (fieldOpc w) (fieldA w) (fieldB w) (fieldBlk w) with
  | none => .error .reservedOpcode
  | some i =>
    if fieldRsv i.format w ≠ 0 then .error .reservedField
    else if fieldOpc w = 0x13#8 ∧ fieldB w ≠ 0#8 then .error .invOperand
    else .ok i

/-- A format N word: RSV ‖ OPC (R121, R129). -/
def wordN (opc : Byte) : Word := 0#24 ++ opc

/-- A format G word: RSV ‖ B ‖ A ‖ OPC (R122, R129). -/
def wordG (opc a b : Byte) : Word := 0#8 ++ b ++ a ++ opc

/-- A format B word: RSV ‖ BLK ‖ OPC (R123, R129). -/
def wordB (opc : Byte) (blk : BitVec 16) : Word := 0#8 ++ blk ++ opc

/-- The word of a command (R125, R129). -/
def encode : Instr → Word
  | .nop => wordN 0x00#8
  | .init => wordN 0x01#8
  | .gfAdd a b => wordG 0x10#8 a b
  | .gfMul a b => wordG 0x11#8 a b
  | .gfDiv a b => wordG 0x12#8 a b
  | .gfInv a => wordG 0x13#8 a 0#8
  | .gfPow a e => wordG 0x14#8 a e
  | .synd blk => wordB 0x20#8 blk
  | .bm => wordN 0x21#8
  | .chien => wordN 0x22#8
  | .forney => wordN 0x23#8
  | .correct blk => wordB 0x24#8 blk
  | .decodeBlk blk => wordB 0x30#8 blk
  | .decodeBuf => wordN 0x31#8

/-- The low `nbits` bits of `w` as a command word, every higher bit 0 (the host's numbering of an instruction's bits:
bit 0 is the least significant bit of the one 32-bit word). -/
def tableWord (nbits w : Nat) : Word := BitVec.ofNat 32 (w % 2 ^ nbits)

/-- The command the decoder reads from the bits `w` of an opcode-table row; none where it refuses. -/
def decodeTableWord (nbits w : Nat) : Option Instr :=
  match decode (tableWord nbits w) with
  | .ok i => some i
  | .error _ => none

end Sys2Proof
end

