-- ==== Sys2Proof/Machine/State.lean ====
section
/-! DEFINITION. The state of the core as plain data, holding all that 10_state.md gives it, the host's coming bus
accesses (the one input of the machine), the reasons a step could stop, and the state after reset (R72). -/

namespace Sys2Proof.Machine

/-- STATUS.RES (R36). Codes 5 and 6 are never produced (I11): no constructor stands for them. -/
inductive Res where
  /-- 0 OK. -/
  | ok
  /-- 1 UNCORR_DEGREE. -/
  | uncorrDegree
  /-- 2 UNCORR_ROOTS. -/
  | uncorrRoots
  /-- 3 UNCORR_RECHECK. -/
  | uncorrRecheck
  /-- 4 BUF_FAIL. -/
  | bufFail
  /-- 7 REJECTED. -/
  | rejected
deriving DecidableEq, Repr

/-- The nine causes of ERR (R37), in the order of their bits. -/
inductive Cause where
  | illegal
  | notInit
  | cfg
  | domain
  | busyWr
  | seq
  | range
  | locked
  | bus
deriving DecidableEq, Repr

/-- The `size` of an access (R90): 1, 2 or 4 bytes, or the reserved code 3. -/
inductive Size where
  | byte
  | half
  | word
  | reserved
deriving DecidableEq, Repr

/-- What happens at the core's pins in one clock cycle (R90, R350). -/
inductive HostEvent where
  /-- No access completes in this cycle. -/
  | idle
  /-- `rst` is 1 at this cycle's edge (R350). -/
  | rst
  /-- `MemRead(addr, size)` takes effect (R91). -/
  | read (addr : Addr) (size : Size)
  /-- `MemWrite(addr, size, v)` takes effect (R91). -/
  | write (addr : Addr) (size : Size) (v : Word)
  /-- One turn of the host's WAIT loop: RD STATUS, and again while bit 0 is 1 (R130). -/
  | poll
deriving DecidableEq, Repr

/-- The antilog and log tables EXP and LOG, 256 entries each (R62, R63). -/
structure Tables where
  exp : List Byte
  log : List Byte
deriving DecidableEq, Repr

/-- BUF as (index, byte) pairs in canonical form: indexes rising, no byte 0 (log 8). -/
abbrev Memory := List Host.Cell

/-- The state of the core (10_state.md), its build parameters (R9), and the model's own fields. -/
structure State where
  /-- The build parameters: fixed, no step changes them (R9, I9). -/
  build : Build
  /-- MODEL: the host's coming events, one per clock cycle, in issue order (R91; log 1). -/
  pending : List HostEvent
  /-- MODEL: LAT - 1 of each coming accepted command; an empty list stands for LAT = 1 (R380; log 3). -/
  latencies : List Nat
  /-- MODEL: the number of free values drawn so far (log 5). -/
  draws : Nat
  /-- MODEL: the data of the last completed host read (rdata of R90; log 14). -/
  rdata : Word
  /-- CMD (R34). -/
  cmd : Word
  /-- STATUS.BUSY (some = 1) with the cycles the running command still holds it after this one (R35, R68, R380). -/
  running : Option Nat
  /-- STATUS.INIT_DONE (R35). -/
  initDone : Bool
  /-- STATUS.SYN_V (R35, R71). -/
  synV : Bool
  /-- STATUS.LOC_V (R35, R71). -/
  locV : Bool
  /-- STATUS.ROOT_V (R35, R71). -/
  rootV : Bool
  /-- STATUS.MAG_V (R35, R71). -/
  magV : Bool
  /-- STATUS.SYN_ZERO (R35). -/
  synZero : Bool
  /-- STATUS.RES (R35, R36). -/
  res : Res
  /-- ERR[8:0] (R37). -/
  err : BitVec 9
  /-- INT_STAT[1:0] (R38). -/
  intStat : BitVec 2
  /-- INT_EN[1:0] (R39). -/
  intEn : BitVec 2
  /-- CFG_N[7:0] (R41). -/
  cfgN : BitVec 8
  /-- CFG_NPAR[7:0] (R42). -/
  cfgNpar : BitVec 8
  /-- CFG_PRIM[8:0] (R43). -/
  cfgPrim : BitVec 9
  /-- CFG_FCR[7:0] (R44). -/
  cfgFcr : BitVec 8
  /-- BUF_LEN[15:0] (R46). -/
  bufLen : BitVec 16
  /-- RESULT[7:0] (R47). -/
  result : Byte
  /-- LOC_L[7:0] (R48). -/
  locL : BitVec 8
  /-- NROOTS[7:0] (R49). -/
  nroots : BitVec 8
  /-- NCORR[7:0] (R50). -/
  ncorr : BitVec 8
  /-- TOTAL_CORR[15:0] (R51). -/
  totalCorr : BitVec 16
  /-- NFAIL[15:0] (R52). -/
  nfail : BitVec 16
  /-- NBLK[15:0] (R53). -/
  nblk : BitVec 16
  /-- SYN, NPAR_MAX entries (R55). -/
  syn : List Byte
  /-- LAMBDA, NPAR_MAX+1 entries (R56). -/
  lam : List Byte
  /-- OMEGA, NPAR_MAX entries (R57). -/
  omega : List Byte
  /-- GEN, NPAR_MAX+1 entries (R58). -/
  gen : List Byte
  /-- ROOT, NPAR_MAX entries (R59). -/
  root : List Byte
  /-- POSN, NPAR_MAX entries (R60). -/
  posn : List Byte
  /-- MAG, NPAR_MAX entries (R61). -/
  mag : List Byte
  /-- EXP and LOG (R62, R63). -/
  tab : Tables
  /-- BSTAT, BLK_MAX entries (R64). -/
  bstat : List Word
  /-- BUF, BUF_BYTES bytes (R65). -/
  buf : Memory
deriving DecidableEq, Repr

/-- Why the machine stops. The core never stops: every command completes or is rejected, and every host access has a
defined effect (R127, R325, R356), so there is no constructor (log 15). -/
inductive Fault where
deriving DecidableEq, Repr

/-- Why a command has no meaning in the model. -/
inductive Refusal where
  /-- Raised by `exec` for a command whose meaning is not written yet, by the opcode table's mnemonic; safe. No arm of
  `exec` raises it. -/
  | notModelled (mnemonic : String)
deriving DecidableEq, Repr

/-- The state right after reset (R72) at the default build (R9). The arrays, tables and BUF, unspecified there, hold 0
(log 7, log 8: DESIGN CHOICE, unsafe); the host has nothing planned (log 16). -/
def State.reset : State where
  build := Build.default
  pending := []
  latencies := []
  draws := 0
  rdata := 0
  cmd := 0
  running := none
  initDone := false
  synV := false
  locV := false
  rootV := false
  magV := false
  synZero := false
  res := .ok
  err := 0
  intStat := 0
  intEn := 0
  cfgN := 0
  cfgNpar := 0
  cfgPrim := 0
  cfgFcr := 0
  bufLen := 0
  result := 0
  locL := 0
  nroots := 0
  ncorr := 0
  totalCorr := 0
  nfail := 0
  nblk := 0
  syn := List.replicate Build.default.nparMax 0
  lam := List.replicate (Build.default.nparMax + 1) 0
  omega := List.replicate Build.default.nparMax 0
  gen := List.replicate (Build.default.nparMax + 1) 0
  root := List.replicate Build.default.nparMax 0
  posn := List.replicate Build.default.nparMax 0
  mag := List.replicate Build.default.nparMax 0
  tab := { exp := List.replicate 256 0, log := List.replicate 256 0 }
  bstat := List.replicate Build.default.blkMax 0
  buf := []

end Sys2Proof.Machine
end

