-- ==== Sys2Proof/Machine/Flags.lean ====
section
/-! DEFINITION. Every flag of the core: the STATUS word and its valid-bit chain (R35, R36, R71), the ERR bits (R37), the
interrupt status, its enables and the line (R38 to R40, R324). -/

namespace Sys2Proof.Machine

/-- The code of STATUS.RES (R36). -/
def Res.code : Res → BitVec 3
  | .ok => 0#3
  | .uncorrDegree => 1#3
  | .uncorrRoots => 2#3
  | .uncorrRecheck => 3#3
  | .bufFail => 4#3
  | .rejected => 7#3

/-- The bit of a cause in ERR (R37). -/
def Cause.bit : Cause → Nat
  | .illegal => 0
  | .notInit => 1
  | .cfg => 2
  | .domain => 3
  | .busyWr => 4
  | .seq => 5
  | .range => 6
  | .locked => 7
  | .bus => 8

/-- ERR with only the bit of a cause set (R37). -/
def Cause.mask (c : Cause) : BitVec 9 := 1#9 <<< c.bit

/-- INT_STAT with only DONE set (R38). -/
def intDone : BitVec 2 := 1#2

/-- INT_STAT with only ERRI set (R38). -/
def intErri : BitVec 2 := 2#2

/-- STATUS.BUSY (R35). -/
def State.busy (s : State) : Bool := s.running.isSome

/-- A one-bit field. -/
def bit1 (b : Bool) : BitVec 1 := BitVec.ofBool b

/-- The STATUS word (R35): RES in bits 10:8, SYN_ZERO, MAG_V, ROOT_V, LOC_V, SYN_V, INIT_DONE and BUSY in bits 6 to 0,
every reserved bit 0. -/
def State.statusWord (s : State) : Word :=
  0#21 ++ s.res.code ++ 0#1 ++ bit1 s.synZero ++ bit1 s.magV ++ bit1 s.rootV ++ bit1 s.locV ++ bit1 s.synV ++
    bit1 s.initDone ++ bit1 s.busy

/-- The interrupt line (R40): `irq = (INT_STAT.DONE and INT_EN.DONE_IE) or (INT_STAT.ERRI and INT_EN.ERR_IE)`. -/
def State.irq (s : State) : Bool :=
  (s.intStat.getLsbD 0 && s.intEn.getLsbD 0) || (s.intStat.getLsbD 1 && s.intEn.getLsbD 1)

/-- The core sets an ERR bit, and with it INT_STAT.ERRI (R37, R38, R324). -/
def State.raiseErr (c : Cause) (s : State) : State :=
  { s with err := s.err ||| c.mask, intStat := s.intStat ||| intErri }

/-- A stage that writes SYN sets SYN_V and clears every bit after it (R71). -/
def State.validSyn (s : State) : State :=
  { s with synV := true, locV := false, rootV := false, magV := false }

/-- A stage that writes LAMBDA sets LOC_V and clears every bit after it (R71). -/
def State.validLoc (s : State) : State :=
  { s with locV := true, rootV := false, magV := false }

/-- A stage that writes ROOT sets ROOT_V and clears MAG_V (R71). -/
def State.validRoot (s : State) : State :=
  { s with rootV := true, magV := false }

/-- A stage that writes MAG sets MAG_V (R71). -/
def State.validMag (s : State) : State :=
  { s with magV := true }

end Sys2Proof.Machine
end

