-- ==== Sys2Proof/Machine/Ops.lean ====
section
/-! DEFINITION. The named operations over memory, arrays and registers, the two ends of a command (R321, R322), and
reset (R350). REJECTING a command is this core's taking of an exception: `State.reject` writes what R321 says and
nothing else. There is no return from one: "The core has no trap entry and no trap return" (R325); the host reads ERR
and CMD and clears the flags by W1C writes (Bus.lean). -/

namespace Sys2Proof.Machine

/-! ### BUF (R65) -/

/-- What a BUF byte that no entry lists reads as (log 8: DESIGN CHOICE). -/
def Memory.unlisted : Byte := 0#8

/-- Every index is at least `lo`, indexes rise strictly, and no entry holds the unlisted byte. -/
def Memory.wfFrom : Nat → Memory → Bool
  | _, [] => true
  | lo, (a, v) :: m => decide (lo ≤ a) && (v != Memory.unlisted) && Memory.wfFrom (a + 1) m

/-- The canonical form: equal memories are equal lists. -/
def Memory.wf (m : Memory) : Bool := Memory.wfFrom 0 m

/-- Every listed index lies below `size`. -/
def Memory.below (size : Nat) (m : Memory) : Bool := m.all fun c => decide (c.1 < size)

/-- `BUF[a]` (R15). -/
def Memory.read (m : Memory) (a : Nat) : Byte :=
  match m with
  | [] => Memory.unlisted
  | (k, v) :: m => if a = k then v else Memory.read m a

/-- An entry for `a`, none if `v` is what an unlisted byte reads as. -/
def Memory.cell (a : Nat) (v : Byte) (m : Memory) : Memory :=
  if v = Memory.unlisted then m else (a, v) :: m

/-- `BUF[a] <- v` (R15), keeping the canonical form. -/
def Memory.write (m : Memory) (a : Nat) (v : Byte) : Memory :=
  match m with
  | [] => Memory.cell a v []
  | (k, w) :: m =>
    if a < k then Memory.cell a v ((k, w) :: m)
    else if a = k then Memory.cell a v m
    else (k, w) :: Memory.write m a v

/-- `BUF[base], BUF[base+1], ... <- vs`, in this order. -/
def Memory.writeAll (m : Memory) (base : Nat) (vs : List Byte) : Memory :=
  match vs with
  | [] => m
  | v :: vs => Memory.writeAll (Memory.write m base v) (base + 1) vs

/-- The memory of `size` bytes whose byte `a` is `f a`. -/
def Memory.ofFn (size : Nat) (f : Nat → Byte) : Memory :=
  (List.range size).foldr (fun a m => Memory.cell a (f a) m) []

/-- Bytes `BUF[base .. base+n-1]`, first byte first. -/
def Memory.bytes (m : Memory) (base n : Nat) : List Byte :=
  (List.range n).map fun k => Memory.read m (base + k)

/-! ### Arrays (R15, R54) -/

/-- `ARR[i]`; an index beyond the array gives 0, as a word of its window beyond the array does (R54). -/
def rd (a : List Byte) (i : Nat) : Byte := a.getD i 0#8

/-- A whole array of `size` entries, entry `i` being `f i` (R54: "Commands write whole arrays"). -/
def fill (size : Nat) (f : Nat → Byte) : List Byte := (List.range size).map f

/-- A whole array of `size` entries whose first `used` entries are `f i` and whose rest is 0 (R54). -/
def fillUsed (size used : Nat) (f : Nat → Byte) : List Byte := fill size fun i => if i < used then f i else 0#8

/-- `⊕_{i < n} f i` (R13). -/
def xorSum (n : Nat) (f : Nat → Byte) : Byte := (List.range n).foldl (fun acc i => acc ^^^ f i) 0#8

/-! ### How a command ends -/

/-- `complete(res)` (R322), after the writes of the command's rule. -/
def State.complete (r : Res) (s : State) : State :=
  { s with res := r, intStat := s.intStat ||| intDone, running := none }

/-- `raise Reject(E)` (R321): ERR.E, INT_STAT.ERRI, RES = 7, INT_STAT.DONE, BUSY = 0, and nothing else. -/
def State.reject (c : Cause) (s : State) : State :=
  (s.raiseErr c).complete .rejected

/-- A command's end: rejected with the first failed check, if any, else `ok` (R320). -/
def commandEnd (failed : Option Cause) (s ok : State) : Host.Outcome State Fault Refusal :=
  match failed with
  | some c => .next (s.reject c)
  | none => .next ok

/-! ### Free values (log 5) -/

/-- An array of `size` unspecified bytes. -/
def freeArray (draw size : Nat) : List Byte := fill size (Config.freeByte draw)

/-- The bits of the layout of a BSTAT entry (R64): WRITTEN, NCORR and RES. -/
def bstatLayout : Word := 0x8000FF07#32

/-- EXP and LOG with every entry unspecified (R157, I2). -/
def freeTables (draw : Nat) : Tables := { exp := freeArray draw 256, log := freeArray (draw + 1) 256 }

/-! ### Reset (R350) -/

/-- The state after an edge with rst = 1 (R350): every item of R72 at its reset value, every unspecified item a free
value (log 6), the running command abandoned. `rest` is what the host does next; the build, the latency schedule and
the bus's last read data are no part of R72 (log 6). -/
def State.afterRst (rest : List HostEvent) (s : State) : State :=
  { State.reset with
    build := s.build
    pending := rest
    latencies := s.latencies
    draws := s.draws + 11
    rdata := s.rdata
    syn := freeArray s.draws s.build.nparMax
    lam := freeArray (s.draws + 1) (s.build.nparMax + 1)
    omega := freeArray (s.draws + 2) s.build.nparMax
    gen := freeArray (s.draws + 3) (s.build.nparMax + 1)
    root := freeArray (s.draws + 4) s.build.nparMax
    posn := freeArray (s.draws + 5) s.build.nparMax
    mag := freeArray (s.draws + 6) s.build.nparMax
    tab := freeTables (s.draws + 7)
    bstat := (List.range s.build.blkMax).map fun b => Config.freeWord (s.draws + 9) b &&& bstatLayout
    buf := Memory.ofFn s.build.bufBytes (Config.freeByte (s.draws + 10)) }

end Sys2Proof.Machine
end

