-- ==== Sys2Proof/Machine/Bus.lean ====
section
/-! DEFINITION. The host's port (20_memory.md): the address map (10_state.md R32), what a read returns, and what a write
does, with the core idle and with a command running (R92, R93, R98 to R102, R320). -/

namespace Sys2Proof.Machine

/-- The array and table windows of R32 whose elements are bytes. -/
inductive ArrName where
  | syn
  | lam
  | omega
  | gen
  | root
  | posn
  | mag
  | exp
  | log
deriving DecidableEq, Repr

/-- What an aligned offset names (R32). -/
inductive Loc where
  | id
  | cmd
  | status
  | err
  | intStat
  | intEn
  | cfgN
  | cfgNpar
  | cfgPrim
  | cfgFcr
  | bufLen
  | result
  | locL
  | nroots
  | ncorr
  | totalCorr
  | nfail
  | nblk
  /-- Element `e` of a byte array's window. -/
  | arr (name : ArrName) (e : Nat)
  /-- Element `b` of BSTAT's window. -/
  | bstat (b : Nat)
  /-- The BUF word whose first byte is `BUF[k]`. -/
  | bufWord (k : Nat)
  /-- RAZ/WI (R98). -/
  | reserved
deriving DecidableEq, Repr

/-- The registers at 0x000 .. 0x044 (R32); the rest of the first 0x400 bytes is reserved. -/
def locateReg (off : Nat) : Loc :=
  match off with
  | 0x000 => .id
  | 0x004 => .cmd
  | 0x008 => .status
  | 0x00C => .err
  | 0x010 => .intStat
  | 0x014 => .intEn
  | 0x018 => .cfgN
  | 0x01C => .cfgNpar
  | 0x020 => .cfgPrim
  | 0x024 => .cfgFcr
  | 0x028 => .bufLen
  | 0x02C => .result
  | 0x030 => .locL
  | 0x034 => .nroots
  | 0x038 => .ncorr
  | 0x03C => .totalCorr
  | 0x040 => .nfail
  | 0x044 => .nblk
  | _ => .reserved

/-- The windows of 0x400 bytes from 0x0400, by the window's number; element e is at its base + 4·e (R32). -/
def locateWindow (window e : Nat) : Loc :=
  match window with
  | 1 => .arr .syn e
  | 2 => .arr .lam e
  | 3 => .arr .omega e
  | 4 => .arr .gen e
  | 5 => .arr .root e
  | 6 => .arr .posn e
  | 7 => .arr .mag e
  | 8 => .arr .exp e
  | 9 => .arr .log e
  | 10 => .bstat e
  | _ => .reserved

/-- What a word-aligned offset names (R32). -/
def locate (b : Build) (addr : Addr) : Loc :=
  let a := addr.toNat
  if a < 0x400 then locateReg a
  else if a < 0x4000 then locateWindow (a / 0x400) (a % 0x400 / 4)
  else if a - 0x4000 < b.bufBytes then .bufWord (a - 0x4000)
  else .reserved

/-- An access the core supports: 4 bytes at a multiple of 4 (R92). -/
def supported (addr : Addr) (size : Size) : Bool := size == .word && addr.toNat % 4 == 0

/-- The 32-bit word of a register or element narrower than it: bits it does not implement read 0 (R31, R54). -/
def widen {w : Nat} (v : BitVec w) : Word := v.zeroExtend 32

/-- The ID register (R33). -/
def idWord : Word := 0x52530100#32

/-- The array behind a window (R54 to R63). -/
def State.array (s : State) : ArrName → List Byte
  | .syn => s.syn
  | .lam => s.lam
  | .omega => s.omega
  | .gen => s.gen
  | .root => s.root
  | .posn => s.posn
  | .mag => s.mag
  | .exp => s.tab.exp
  | .log => s.tab.log

/-- A BUF word, little-endian (R93). -/
def bufWordAt (m : Memory) (k : Nat) : Word :=
  Memory.read m (k + 3) ++ Memory.read m (k + 2) ++ Memory.read m (k + 1) ++ Memory.read m k

/-- The defined value of a location (R31 to R54, R64, R93, R98). -/
def State.locValue (s : State) : Loc → Word
  | .id => idWord
  | .cmd => s.cmd
  | .status => s.statusWord
  | .err => widen s.err
  | .intStat => widen s.intStat
  | .intEn => widen s.intEn
  | .cfgN => widen s.cfgN
  | .cfgNpar => widen s.cfgNpar
  | .cfgPrim => widen s.cfgPrim
  | .cfgFcr => widen s.cfgFcr
  | .bufLen => widen s.bufLen
  | .result => widen s.result
  | .locL => widen s.locL
  | .nroots => widen s.nroots
  | .ncorr => widen s.ncorr
  | .totalCorr => widen s.totalCorr
  | .nfail => widen s.nfail
  | .nblk => widen s.nblk
  | .arr name e => widen (rd (s.array name) e)
  | .bstat b => s.bstat.getD b 0#32
  | .bufWord k => bufWordAt s.buf k
  | .reserved => 0#32

/-- The locations whose read is defined while a command runs (R102); the reserved offsets read 0 at all times (R98;
log 11). -/
def Loc.definedWhileBusy (initDone : Bool) : Loc → Bool
  | .id | .cmd | .status | .err | .intStat | .intEn | .cfgN | .cfgNpar | .cfgPrim | .cfgFcr | .bufLen => true
  | .result | .locL | .nroots | .ncorr | .totalCorr | .nfail | .nblk => false
  | .arr .exp _ | .arr .log _ | .arr .gen _ => initDone
  | .arr .syn _ | .arr .lam _ | .arr .omega _ | .arr .root _ | .arr .posn _ | .arr .mag _ => false
  | .bstat _ | .bufWord _ => false
  | .reserved => true

/-- `MemRead(addr, n)`: the word goes to `rdata`. An unsupported read returns 0 and sets ERR.BUS (R92); a read that R102
leaves unspecified returns a free word. -/
def State.hostRead (addr : Addr) (size : Size) (s : State) : State :=
  if supported addr size then
    let loc := locate s.build addr
    if s.busy && !loc.definedWhileBusy s.initDone then
      { s with rdata := Config.freeWord s.draws 0, draws := s.draws + 1 }
    else { s with rdata := s.locValue loc }
  else { s.raiseErr .bus with rdata := 0#32 }

/-- `BUF[k+i] <- v[8i+7:8i]` for i = 0..3 (R93). -/
def bufWriteWord (m : Memory) (k : Nat) (v : Word) : Memory :=
  Memory.writeAll m k [v.extractLsb' 0 8, v.extractLsb' 8 8, v.extractLsb' 16 8, v.extractLsb' 24 8]

/-- A CMD write with the core idle (R34, R128): the word is stored and BUSY rises, for LAT ≥ 1 cycles (R380). -/
def State.acceptCommand (w : Word) (s : State) : State :=
  { s with cmd := w, running := some (s.latencies.headD 0), latencies := s.latencies.tail }

/-- A write to a CFG_* register with the core idle (R45): refused with ERR.LOCKED once INIT has succeeded. -/
def State.writeCfg (s stored : State) : State :=
  if s.initDone then s.raiseErr .locked else stored

/-- A supported write with the core idle (R31, R34, R37 to R46, R54, R93, R98). -/
def State.writeIdle (loc : Loc) (v : Word) (s : State) : State :=
  match loc with
  | .cmd => s.acceptCommand v
  | .err => { s with err := s.err &&& ~~~(v.extractLsb' 0 9) }
  | .intStat => { s with intStat := s.intStat &&& ~~~(v.extractLsb' 0 2) }
  | .intEn => { s with intEn := v.extractLsb' 0 2 }
  | .cfgN => s.writeCfg { s with cfgN := v.extractLsb' 0 8 }
  | .cfgNpar => s.writeCfg { s with cfgNpar := v.extractLsb' 0 8 }
  | .cfgPrim => s.writeCfg { s with cfgPrim := v.extractLsb' 0 9 }
  | .cfgFcr => s.writeCfg { s with cfgFcr := v.extractLsb' 0 8 }
  | .bufLen => { s with bufLen := v.extractLsb' 0 16 }
  | .bufWord k => { s with buf := bufWriteWord s.buf k v }
  | .id | .status | .result | .locL | .nroots | .ncorr | .totalCorr | .nfail | .nblk => s
  | .arr _ _ | .bstat _ | .reserved => s

/-- A supported write while a command runs (R101). -/
def State.writeBusy (loc : Loc) (v : Word) (s : State) : State :=
  match loc with
  | .cmd | .cfgN | .cfgNpar | .cfgPrim | .cfgFcr | .bufLen | .bufWord _ => s.raiseErr .busyWr
  | .err | .intStat | .intEn => s.writeIdle loc v
  | .id | .status | .result | .locL | .nroots | .ncorr | .totalCorr | .nfail | .nblk => s
  | .arr _ _ | .bstat _ | .reserved => s

/-- `MemWrite(addr, n, v)` (R92, R101), in the order of R320: BUS, BUSY_WR, LOCKED. -/
def State.hostWrite (addr : Addr) (size : Size) (v : Word) (s : State) : State :=
  if supported addr size then
    let loc := locate s.build addr
    if s.busy then s.writeBusy loc v else s.writeIdle loc v
  else s.raiseErr .bus

/-- The offset of STATUS (R32). -/
def statusAddr : Addr := 0x0008#16

/-- What the host's coming events are after a turn of its WAIT loop: again while BUSY = 1 (R130). -/
def State.afterPoll (rest : List HostEvent) (s : State) : List HostEvent :=
  if s.busy then .poll :: rest else rest

/-! ### The window in the host's address space (R32) -/

/-- The host address of an offset: offsets are relative to BASE (R32). -/
def hostAddr (b : Build) (off : Addr) : Nat := b.base + off.toNat

/-- The offset at a host address; none outside the core's 2^ADDR_W bytes at BASE (R32). -/
def offsetAt (b : Build) (addr : Nat) : Option Addr :=
  if b.base ≤ addr ∧ addr < b.base + 65536 then some (BitVec.ofNat 16 (addr - b.base)) else none

/-- An access of the host at an address of its own address space. -/
inductive HostAccess where
  | read (addr : Nat) (size : Size)
  | write (addr : Nat) (size : Size) (v : Word)
deriving DecidableEq, Repr

/-- What an access is at the core's port, which carries the offset from BASE (R90). An access outside the window does not
select the core (log 9). -/
def HostAccess.event (b : Build) : HostAccess → HostEvent
  | .read addr size =>
    match offsetAt b addr with
    | some off => .read off size
    | none => .idle
  | .write addr size v =>
    match offsetAt b addr with
    | some off => .write off size v
    | none => .idle

/-- The host does `events`, a program's accesses for example, after what it has planned already (R91; log 16). -/
def State.load (events : List HostEvent) (s : State) : State := { s with pending := s.pending ++ events }

/-- The host makes accesses at host addresses, after what it has planned already. -/
def State.plan (accesses : List HostAccess) (s : State) : State := s.load (accesses.map (HostAccess.event s.build))

/-! ### Host events -/

/-- One host event's effect on the core, the core's own action of the cycle apart. `rst` has no access (R350). -/
def State.hostEvent (e : HostEvent) (s : State) : State :=
  match e with
  | .idle | .rst => s
  | .read addr size => s.hostRead addr size
  | .write addr size v => s.hostWrite addr size v
  | .poll => s.hostRead statusAddr .word

end Sys2Proof.Machine
end

