-- ==== Sys2Proof/Machine/Operands.lean ====
section
/-! DEFINITION. The operands a command takes from configuration and work state (R124), the block of BUF it names (R95,
R96), and the checks of R320 on them. -/

namespace Sys2Proof.Machine

/-- N = CFG_N[7:0] (R41, R161). -/
def State.n (s : State) : Nat := s.cfgN.toNat

/-- NPAR = CFG_NPAR[7:0] (R42, R161). -/
def State.npar (s : State) : Nat := s.cfgNpar.toNat

/-- FCR = CFG_FCR[7:0] (R44, R161). -/
def State.fcr (s : State) : Nat := s.cfgFcr.toNat

/-- The correction capacity t = NPAR div 2 (R8, R42). -/
def State.capacity (s : State) : Nat := s.npar / 2

/-- The byte offset of a block: `blk · N` (R96, R124). -/
def State.blockBase (s : State) (blk : BitVec 16) : Nat := blk.toNat * s.n

/-- The N bytes of the block that starts at `base`, first byte first (R95, R96). -/
def State.blockBytes (s : State) (base : Nat) : List Byte := Memory.bytes s.buf base s.n

/-- NOT_INIT (R312). -/
def checkInit (s : State) : Option Cause := if s.initDone then none else some .notInit

/-- SEQ (R316): a stage's input is not valid. -/
def checkSeq (valid : Bool) : Option Cause := if valid then none else some .seq

/-- RANGE for a block index (R96, R317). -/
def checkBlock (blk : BitVec 16) (s : State) : Option Cause :=
  if s.build.blkMax ≤ blk.toNat ∨ s.build.bufBytes < (blk.toNat + 1) * s.n then some .range else none

/-- RANGE for BUF_LEN (R283, R317). -/
def checkBufLen (s : State) : Option Cause :=
  if s.bufLen.toNat ≤ s.build.bufBytes ∧ s.bufLen.toNat % s.n = 0 ∧ s.bufLen.toNat / s.n ≤ s.build.blkMax then none
  else some .range

/-- DOMAIN (R314): a zero divisor, inverse of zero, or a zero denominator. -/
def checkDomain (zero : Bool) : Option Cause := if zero then some .domain else none

/-- The first failing check of a list in the order of R320. -/
def firstFailed : List (Option Cause) → Option Cause
  | [] => none
  | some c :: _ => some c
  | none :: cs => firstFailed cs

/-- The part of INIT's configuration check that precedes build_tables (R161, R313). -/
def State.cfgLegal (s : State) : Bool :=
  decide (1 ≤ s.n) && decide (s.n ≤ 255) && decide (s.n ≤ s.build.bufBytes) && (s.npar % 2 == 0) &&
    decide (s.npar ≤ s.build.nparMax) && decide (s.npar < s.n)

end Sys2Proof.Machine
end

