-- ==== Sys2Proof/Machine/Field.lean ====
section
/-! DEFINITION. The Field Engine (40_field_engine.md): the tables, the pure functions over them, and the commands
GF.ADD, GF.MUL, GF.DIV, GF.INV and GF.POW. -/

namespace Sys2Proof.Machine

/-- `xtime(v)`: multiplication by α = x modulo PRIM (R152). -/
def xtime (prim : BitVec 9) (v : Byte) : Byte :=
  let u := v.zeroExtend 9 <<< 1
  (if u.getLsbD 8 then u ^^^ prim else u).extractLsb' 0 8

/-- `α^e = EXP[e mod 255]` (R13). -/
def Tables.alpha (t : Tables) (e : Nat) : Byte := rd t.exp (e % 255)

/-- `LOG[v]` as an integer. -/
def Tables.lg (t : Tables) (v : Byte) : Nat := (rd t.log v.toNat).toNat

/-- `gf_mul(a, b)` (R153). -/
def gfMul (t : Tables) (a b : Byte) : Byte :=
  if a = 0#8 ∨ b = 0#8 then 0#8 else t.alpha (t.lg a + t.lg b)

/-- `gf_div(a, b)` (R154); callers have tested b ≠ 0. -/
def gfDiv (t : Tables) (a b : Byte) : Byte :=
  if a = 0#8 then 0#8 else t.alpha (t.lg a + 255 - t.lg b)

/-- `gf_inv(a)` (R155); callers have tested a ≠ 0. -/
def gfInv (t : Tables) (a : Byte) : Byte := t.alpha (255 - t.lg a)

/-- `gf_pow(a, e)` (R156); `gf_pow(0, 0) = 1`. -/
def gfPow (t : Tables) (a : Byte) (e : Nat) : Byte :=
  if a = 0#8 then (if e = 0 then 1#8 else 0#8) else t.alpha (t.lg a * e)

/-- `eval(P, x)` by Horner's rule from the highest index down (R14). -/
def polyEval (t : Tables) (p : List Byte) (x : Byte) : Byte :=
  p.foldr (fun c acc => gfMul t acc x ^^^ c) 0#8

/-- What build_tables carries from one turn of its loop to the next: e and the tables written so far (R157). -/
structure BuildAcc where
  e : Byte
  tab : Tables

/-- One turn of build_tables' loop, for index i (R157); none is FAIL. -/
def buildTurn (prim : BitVec 9) (acc : Option BuildAcc) (i : Nat) : Option BuildAcc :=
  match acc with
  | none => none
  | some b =>
    if 0 < i ∧ b.e = 0x01#8 then none
    else
      some
        { e := xtime prim b.e
          tab := { exp := b.tab.exp.set i b.e, log := b.tab.log.set b.e.toNat (BitVec.ofNat 8 i) } }

/-- Tables whose every entry is still to be written. -/
def Tables.blank : Tables := { exp := List.replicate 256 0#8, log := List.replicate 256 0#8 }

/-- `build_tables(PRIM)` (R157); none is FAIL. A success writes all 256 entries of both tables. -/
def buildTables (prim : BitVec 9) : Option Tables :=
  if prim.getLsbD 8 then
    match (List.range 255).foldl (buildTurn prim) (some { e := 0x01#8, tab := Tables.blank }) with
    | none => none
    | some b =>
      if b.e ≠ 0x01#8 then none
      else some { exp := b.tab.exp.set 255 0x01#8, log := b.tab.log.set 0 0xFF#8 }
  else none

/-- `RESULT <- v; complete(OK)`. -/
def State.giveResult (v : Byte) (s : State) : State := { s with result := v }.complete .ok

/-- GF.ADD a, b (R162). -/
def execGfAdd (a b : Byte) (s : State) : Host.Outcome State Fault Refusal :=
  commandEnd (checkInit s) s (s.giveResult (a ^^^ b))

/-- GF.MUL a, b (R163). -/
def execGfMul (a b : Byte) (s : State) : Host.Outcome State Fault Refusal :=
  commandEnd (checkInit s) s (s.giveResult (gfMul s.tab a b))

/-- GF.DIV a, b (R164). -/
def execGfDiv (a b : Byte) (s : State) : Host.Outcome State Fault Refusal :=
  commandEnd (firstFailed [checkInit s, checkDomain (b == 0#8)]) s (s.giveResult (gfDiv s.tab a b))

/-- GF.INV a (R165). -/
def execGfInv (a : Byte) (s : State) : Host.Outcome State Fault Refusal :=
  commandEnd (firstFailed [checkInit s, checkDomain (a == 0#8)]) s (s.giveResult (gfInv s.tab a))

/-- GF.POW a, e (R166). -/
def execGfPow (a e : Byte) (s : State) : Host.Outcome State Fault Refusal :=
  commandEnd (checkInit s) s (s.giveResult (gfPow s.tab a e.toNat))

end Sys2Proof.Machine
end

