-- ==== Sys2Proof/Machine/Chien.lean ====
section
/-! DEFINITION. The root finder: Chien search and the command CHIEN (43_chien.md). -/

namespace Sys2Proof.Machine

/-- `α^(-p) = EXP[(255 - p) mod 255]` (R230, R252, R254). -/
def Tables.alphaNeg (t : Tables) (p : Nat) : Byte := t.alpha (255 - p)

/-- `chien(Λ)`: the positions p in 0..254, rising, at which Λ(α^(-p)) = 0 (R230). -/
def chien (t : Tables) (lam : List Byte) : List Nat :=
  (List.range 255).filter fun p => polyEval t lam (t.alphaNeg p) == 0#8

/-- The byte index of position p: `N - 1 - (p mod N)` (R232). -/
def posnOf (n p : Nat) : Byte := BitVec.ofNat 8 (n - 1 - p % n)

/-- The body of CHIEN, without complete (R231). -/
def State.chienBody (s : State) : State :=
  let ps := chien s.tab (s.lam.take (s.npar + 1))
  { s.validRoot with
    root := fillUsed s.build.nparMax ps.length fun k => BitVec.ofNat 8 (ps.getD k 0)
    posn := fillUsed s.build.nparMax ps.length fun k => posnOf s.n (ps.getD k 0)
    nroots := BitVec.ofNat 8 ps.length }

/-- The result code of CHIEN: is the number of roots LOC_L? (R231, R233). -/
def State.chienRes (s : State) : Res := if s.nroots = s.locL then .ok else .uncorrRoots

/-- CHIEN (R231). -/
def execChien (s : State) : Host.Outcome State Fault Refusal :=
  commandEnd (firstFailed [checkInit s, checkSeq s.locV]) s (s.chienBody.complete s.chienBody.chienRes)

end Sys2Proof.Machine
end

