-- ==== Sys2Proof/Machine/Forney.lean ====
section
/-! DEFINITION. The magnitude reconstructor and the application of corrections: FORNEY and CORRECT (44_forney.md). -/

namespace Sys2Proof.Machine

/-- Coefficient i of Ω(x) = S(x)·Λ(x) (R250). -/
def omegaCoeff (t : Tables) (syn lam : List Byte) (i : Nat) : Byte :=
  xorSum (i + 1) fun j => gfMul t (rd syn j) (rd lam (i - j))

/-- `omega(S, Λ)`: Ω[0 .. NPAR-1] (R250). -/
def omegaOf (t : Tables) (npar : Nat) (syn lam : List Byte) : List Byte := fill npar (omegaCoeff t syn lam)

/-- `deriv_eval(Λ, y)`: the odd-degree terms (R251). -/
def derivEval (t : Tables) (npar : Nat) (lam : List Byte) (y : Byte) : Byte :=
  xorSum (npar + 1) fun i => if i % 2 = 1 then gfMul t (rd lam i) (gfPow t y (i - 1)) else 0#8

/-- `s = (256 - f) mod 255` with `f = FCR mod 255`, that is (1 - FCR) mod 255 (R252). -/
def fcrShift (fcr : Nat) : Nat := (256 - fcr % 255) % 255

/-- `magnitude(p)` (R252). -/
def magnitude (t : Tables) (npar fcr : Nat) (om lam : List Byte) (p : Nat) : Byte :=
  gfMul t (t.alpha (p * fcrShift fcr))
    (gfDiv t (polyEval t om (t.alphaNeg p)) (derivEval t npar lam (t.alphaNeg p)))

/-- ROOT[k] as an exponent. -/
def State.rootAt (s : State) (k : Nat) : Nat := (rd s.root k).toNat

/-- Some denominator den[k], k < NROOTS, is 0 (R254). -/
def State.zeroDenominator (s : State) : Bool :=
  (List.range s.nroots.toNat).any fun k => derivEval s.tab s.npar s.lam (s.tab.alphaNeg (s.rootAt k)) == 0#8

/-- The writes of FORNEY, without its denominator test and without complete (R254). -/
def State.forneyBody (s : State) : State :=
  let om := omegaOf s.tab s.npar s.syn s.lam
  { s.validMag with
    mag := fillUsed s.build.nparMax s.nroots.toNat fun k => magnitude s.tab s.npar s.fcr om s.lam (s.rootAt k)
    omega := fillUsed s.build.nparMax s.npar (rd om) }

/-- FORNEY (R254). -/
def execForney (s : State) : Host.Outcome State Fault Refusal :=
  commandEnd (firstFailed [checkInit s, checkSeq s.rootV, checkDomain s.zeroDenominator]) s
    (s.forneyBody.complete .ok)

/-- `BUF[base + POSN[k]] <- BUF[base + POSN[k]] XOR MAG[k]` (R255). -/
def correctTurn (posn mag : List Byte) (base : Nat) (m : Memory) (k : Nat) : Memory :=
  let a := base + (rd posn k).toNat
  Memory.write m a (Memory.read m a ^^^ rd mag k)

/-- The corrections of the first `n` roots, in order of k (R255). -/
def correctAll (posn mag : List Byte) (base n : Nat) (m : Memory) : Memory :=
  (List.range n).foldl (correctTurn posn mag base) m

/-- The writes of CORRECT (R255). -/
def State.correctBody (base : Nat) (s : State) : State :=
  { s with buf := correctAll s.posn s.mag base s.nroots.toNat s.buf, ncorr := s.nroots }

/-- CORRECT blk (R255). -/
def execCorrect (blk : BitVec 16) (s : State) : Host.Outcome State Fault Refusal :=
  commandEnd (firstFailed [checkInit s, checkSeq s.magV, checkBlock blk s]) s
    ((s.correctBody (s.blockBase blk)).complete .ok)

end Sys2Proof.Machine
end

