-- ==== Sys2Proof/Machine/Locator.lean ====
section
/-! DEFINITION. The error locator solver: Berlekamp-Massey and the command BM (42_locator_bm.md). -/

namespace Sys2Proof.Machine

/-- The values of a Berlekamp-Massey run (R66, R211): the locator Λ, the stored polynomial B, the length L, the shift m
and the discrepancy b. Λ and B hold NPAR + 1 coefficients. -/
structure BmAcc where
  lam : List Byte
  old : List Byte
  len : Nat
  shift : Nat
  disc : Byte
deriving DecidableEq, Repr

/-- The values before the first iteration (R211). -/
def BmAcc.start (npar : Nat) : BmAcc where
  lam := fill (npar + 1) fun i => if i = 0 then 0x01#8 else 0#8
  old := fill (npar + 1) fun i => if i = 0 then 0x01#8 else 0#8
  len := 0
  shift := 1
  disc := 0x01#8

/-- The discrepancy d of iteration r: `S[r] ⊕ ⊕_{i=1}^{L} Λ[i] ⊗ S[r-i]` (R211). -/
def bmDiscrepancy (t : Tables) (syn : List Byte) (p : BmAcc) (r : Nat) : Byte :=
  rd syn r ^^^ xorSum p.len fun i => gfMul t (rd p.lam (i + 1)) (rd syn (r - (i + 1)))

/-- `Λ ⊕ c·x^m·B`, NPAR + 1 coefficients (R211). -/
def bmUpdate (t : Tables) (npar : Nat) (p : BmAcc) (c : Byte) : List Byte :=
  fill (npar + 1) fun k =>
    if p.shift ≤ k then rd p.lam k ^^^ gfMul t c (rd p.old (k - p.shift)) else rd p.lam k

/-- Iteration r of Berlekamp-Massey (R211). -/
def bmTurn (t : Tables) (npar : Nat) (syn : List Byte) (p : BmAcc) (r : Nat) : BmAcc :=
  let d := bmDiscrepancy t syn p r
  if d = 0#8 then { p with shift := p.shift + 1 }
  else
    let lam := bmUpdate t npar p (gfDiv t d p.disc)
    if 2 * p.len ≤ r then { lam := lam, old := p.lam, len := r + 1 - p.len, shift := 1, disc := d }
    else { p with lam := lam, shift := p.shift + 1 }

/-- The values before iteration `r` (R211). -/
def bmAfter (t : Tables) (npar : Nat) (syn : List Byte) (r : Nat) : BmAcc :=
  (List.range r).foldl (bmTurn t npar syn) (BmAcc.start npar)

/-- `bm(S)`: exactly NPAR iterations (R211). -/
def bm (t : Tables) (npar : Nat) (syn : List Byte) : BmAcc := bmAfter t npar syn npar

/-- The body of BM, without complete (R213). -/
def State.bmBody (s : State) : State :=
  let p := bm s.tab s.npar s.syn
  { s.validLoc with
    lam := fillUsed (s.build.nparMax + 1) (s.npar + 1) (rd p.lam)
    locL := BitVec.ofNat 8 p.len }

/-- The result code of BM: is L above t? (R213). -/
def State.bmRes (s : State) : Res := if s.locL.toNat ≤ s.capacity then .ok else .uncorrDegree

/-- BM (R213). -/
def execBm (s : State) : Host.Outcome State Fault Refusal :=
  commandEnd (firstFailed [checkInit s, checkSeq s.synV]) s (s.bmBody.complete s.bmBody.bmRes)

end Sys2Proof.Machine
end

