-- ==== Sys2Proof/Machine/Syndrome.lean ====
section
/-! DEFINITION. The generator polynomial and the syndromes (41_generator_syndrome.md): build_generator, the body of SYND
and the command SYND. -/

namespace Sys2Proof.Machine

/-- The generator root `ρ_j = α^((FCR + j) mod 255)` (R190). -/
def Tables.genRoot (t : Tables) (fcr j : Nat) : Byte := t.alpha (fcr + j)

/-- One turn of build_generator's outer loop: G times (x + ρ_j) (R191). The inner loop runs from the high index down, so
every G[i-1] and G[i] it reads is the one before the turn. -/
def genTurn (t : Tables) (fcr : Nat) (g : List Byte) (j : Nat) : List Byte :=
  let r := t.genRoot fcr j
  fill g.length fun i =>
    if i = 0 then gfMul t (rd g 0) r
    else if i ≤ j + 1 then rd g (i - 1) ^^^ gfMul t (rd g i) r
    else rd g i

/-- `build_generator(NPAR, FCR)` (R191): GEN, NPAR_MAX + 1 coefficients. -/
def buildGenerator (t : Tables) (nparMax npar fcr : Nat) : List Byte :=
  (List.range npar).foldl (genTurn t fcr) (fill (nparMax + 1) fun i => if i = 0 then 0x01#8 else 0#8)

/-- Syndrome j of a block given as its bytes, first byte first: Horner's rule at ρ_j (R193). -/
def syndromeOf (t : Tables) (fcr : Nat) (block : List Byte) (j : Nat) : Byte :=
  block.foldl (fun acc c => gfMul t acc (t.genRoot fcr j) ^^^ c) 0#8

/-- `S[j] = 0` for every j < NPAR, of a block given as its bytes (R194, R280 step 5). -/
def syndromesZero (t : Tables) (fcr npar : Nat) (block : List Byte) : Bool :=
  (List.range npar).all fun j => syndromeOf t fcr block j == 0#8

/-- The body of SYND on the block that starts at `base`, without complete (R194). -/
def State.syndBody (base : Nat) (s : State) : State :=
  let block := s.blockBytes base
  { s.validSyn with
    syn := fillUsed s.build.nparMax s.npar (syndromeOf s.tab s.fcr block)
    synZero := syndromesZero s.tab s.fcr s.npar block }

/-- SYND blk (R194). -/
def execSynd (blk : BitVec 16) (s : State) : Host.Outcome State Fault Refusal :=
  commandEnd (firstFailed [checkInit s, checkBlock blk s]) s ((s.syndBody (s.blockBase blk)).complete .ok)

end Sys2Proof.Machine
end

