-- ==== Sys2Proof/Machine/Block.lean ====
section
/-! DEFINITION. The block decoder: decode_block and the commands DECODE.BLK and DECODE.BUF (45_block_decoder.md). -/

namespace Sys2Proof.Machine

/-- What decode_block gives: the result code, the correction count and the state its stages left (R280). -/
structure BlockEnd where
  res : Res
  ncorr : Nat
  st : State
deriving DecidableEq, Repr

/-- `W[POSN[k]] <- W[POSN[k]] XOR MAG[k]` on the working copy (R280 step 4). -/
def patchTurn (posn mag : List Byte) (w : List Byte) (k : Nat) : List Byte :=
  w.set (rd posn k).toNat (rd w (rd posn k).toNat ^^^ rd mag k)

/-- The working copy after step 4 (R280). -/
def patched (posn mag : List Byte) (n : Nat) (w : List Byte) : List Byte :=
  (List.range n).foldl (patchTurn posn mag) w

/-- Steps 4 to 6 of decode_block, for the working copy `w` (R280). FORNEY's denominator test is not made: "cannot
reject" (R253, log 13). -/
def State.repairBlock (base : Nat) (w : List Byte) (s : State) : BlockEnd :=
  let f := s.forneyBody
  let w' := patched f.posn f.mag f.nroots.toNat w
  if syndromesZero f.tab f.fcr f.npar w' then
    { res := .ok, ncorr := f.nroots.toNat, st := { f with buf := Memory.writeAll f.buf base w' } }
  else { res := .uncorrRecheck, ncorr := 0, st := f }

/-- `decode_block` on the block that starts at `base` (R280). -/
def State.decodeBlock (base : Nat) (s : State) : BlockEnd :=
  let s1 := s.syndBody base
  if s1.synZero then { res := .ok, ncorr := 0, st := s1 }
  else
    let s2 := s1.bmBody
    if s2.capacity < s2.locL.toNat then { res := .uncorrDegree, ncorr := 0, st := s2 }
    else
      let s3 := s2.chienBody
      if s3.nroots ≠ s3.locL then { res := .uncorrRoots, ncorr := 0, st := s3 }
      else s3.repairBlock base (s.blockBytes base)

/-- A BSTAT entry: `(1 << 31) | (nc << 8) | res` (R64, R281). -/
def bstatWord (r : Res) (nc : Nat) : Word := 1#1 ++ 0#15 ++ BitVec.ofNat 8 nc ++ 0#5 ++ r.code

/-- `BSTAT[b] <- v`. -/
def State.setBstat (b : Nat) (v : Word) (s : State) : State := { s with bstat := s.bstat.set b v }

/-- The writes of DECODE.BLK after decode_block (R281). -/
def BlockEnd.record (e : BlockEnd) (blk : BitVec 16) : State :=
  { e.st.setBstat blk.toNat (bstatWord e.res e.ncorr) with ncorr := BitVec.ofNat 8 e.ncorr }

/-- DECODE.BLK blk (R281). -/
def execDecodeBlk (blk : BitVec 16) (s : State) : Host.Outcome State Fault Refusal :=
  let e := s.decodeBlock (s.blockBase blk)
  commandEnd (firstFailed [checkInit s, checkBlock blk s]) s ((e.record blk).complete e.res)

/-- What DECODE.BUF carries from block to block: the state, tot, nf and the last nc (R282). -/
structure BufAcc where
  st : State
  tot : Nat
  nf : Nat
  nc : Nat
deriving DecidableEq, Repr

/-- Block b of DECODE.BUF (R282). -/
def bufTurn (p : BufAcc) (b : Nat) : BufAcc :=
  let e := p.st.decodeBlock (b * p.st.n)
  let st := e.st.setBstat b (bstatWord e.res e.ncorr)
  if e.res = .ok then { st := st, tot := p.tot + e.ncorr, nf := p.nf, nc := e.ncorr }
  else { st := st, tot := p.tot, nf := p.nf + 1, nc := e.ncorr }

/-- The first `nb` blocks of DECODE.BUF, from BSTAT all zero (R282). -/
def State.decodeBlocks (nb : Nat) (s : State) : BufAcc :=
  (List.range nb).foldl bufTurn
    { st := { s with bstat := List.replicate s.build.blkMax 0#32 }, tot := 0, nf := 0, nc := 0 }

/-- The writes of DECODE.BUF after its `nb` blocks (R282). -/
def BufAcc.record (p : BufAcc) (nb : Nat) : State :=
  { p.st with
    ncorr := BitVec.ofNat 8 p.nc
    totalCorr := BitVec.ofNat 16 p.tot
    nfail := BitVec.ofNat 16 p.nf
    nblk := BitVec.ofNat 16 nb }

/-- DECODE.BUF (R282, R283). -/
def execDecodeBuf (s : State) : Host.Outcome State Fault Refusal :=
  let nb := s.bufLen.toNat / s.n
  let p := s.decodeBlocks nb
  commandEnd (firstFailed [checkInit s, checkBufLen s]) s
    ((p.record nb).complete (if p.nf = 0 then .ok else .bufFail))

end Sys2Proof.Machine
end

