-- ==== Sys2Proof/Machine/Init.lean ====
section
/-! DEFINITION. NOP and INIT (40_field_engine.md R160, R161). -/

namespace Sys2Proof.Machine

/-- NOP (R160). -/
def execNop (s : State) : Host.Outcome State Fault Refusal := .next (s.complete .ok)

/-- INIT's rejection when build_tables has failed: ERR.CFG, and EXP and LOG unspecified (R157, R313, I2; log 10). -/
def State.failedBuild (s : State) : State :=
  { s.reject .cfg with tab := freeTables s.draws, draws := s.draws + 2 }

/-- INIT's success: the tables, GEN and INIT_DONE (R161). -/
def State.initialised (t : Tables) (s : State) : State :=
  { s with tab := t, gen := buildGenerator t s.build.nparMax s.npar s.fcr, initDone := true }.complete .ok

/-- INIT (R161). -/
def execInit (s : State) : Host.Outcome State Fault Refusal :=
  if s.initDone then .next (s.complete .ok)
  else if s.cfgLegal then
    match buildTables s.cfgPrim with
    | none => .next s.failedBuild
    | some t => .next (s.initialised t)
  else .next (s.reject .cfg)

end Sys2Proof.Machine
end

