-- ==== Sys2Proof/Machine/Dispatch.lean ====
section
/-! DEFINITION. The meaning of each command, one arm per constructor (30_encoding.md R125). -/

namespace Sys2Proof.Machine

def exec (i : Instr) (s : State) : Host.Outcome State Fault Refusal :=
  match i with
  -- 40_field_engine.md
  | .nop => Sys2Proof.Machine.execNop s
  | .init => Sys2Proof.Machine.execInit s
  | .gfAdd a b => Sys2Proof.Machine.execGfAdd a b s
  | .gfMul a b => Sys2Proof.Machine.execGfMul a b s
  | .gfDiv a b => Sys2Proof.Machine.execGfDiv a b s
  | .gfInv a => Sys2Proof.Machine.execGfInv a s
  | .gfPow a e => Sys2Proof.Machine.execGfPow a e s
  -- 41_generator_syndrome.md to 44_forney.md
  | .synd blk => Sys2Proof.Machine.execSynd blk s
  | .bm => Sys2Proof.Machine.execBm s
  | .chien => Sys2Proof.Machine.execChien s
  | .forney => Sys2Proof.Machine.execForney s
  | .correct blk => Sys2Proof.Machine.execCorrect blk s
  -- 45_block_decoder.md
  | .decodeBlk blk => Sys2Proof.Machine.execDecodeBlk blk s
  | .decodeBuf => Sys2Proof.Machine.execDecodeBuf s

end Sys2Proof.Machine
end

