-- ==== Sys2Proof/Machine/Sequencer.lean ====
section
/-! DEFINITION. One clock cycle (20_memory.md R90, R103): the host's event of the cycle takes effect first, then the
command engine's action, so that a bit which the host clears and the core sets in one cycle ends set (R38; log 2). -/

namespace Sys2Proof.Machine

/-- The running command at its completion point: the word in CMD, decoded (R128), has its effect at once (R103, R354);
an illegal word is rejected with ERR.ILLEGAL (R126, R311). -/
def runCommand (s : State) : Host.Outcome State Fault Refusal :=
  match decode s.cmd with
  | .ok i => exec i s
  | .error _ => .next (s.reject .illegal)

/-- The command engine's action in a cycle at whose start it stood at `was` (R68, R380): idle, at the completion point, or
with cycles to go. -/
def engineCycle (was : Option Nat) (s : State) : Host.Outcome State Fault Refusal :=
  match was with
  | none => .next s
  | some 0 => runCommand s
  | some (k + 1) => .next { s with running := some k }

/-- One clock cycle with the host's next event (R18, R90, R91, R350). -/
def cycle (s : State) : Host.Outcome State Fault Refusal :=
  match s.pending with
  | [] => engineCycle s.running s
  | .rst :: rest => .next (s.afterRst rest)
  | .poll :: rest => engineCycle s.running ({ s with pending := s.afterPoll rest }.hostEvent .poll)
  | .idle :: rest => engineCycle s.running { s with pending := rest }
  | .read addr size :: rest => engineCycle s.running ({ s with pending := rest }.hostEvent (.read addr size))
  | .write addr size v :: rest => engineCycle s.running ({ s with pending := rest }.hostEvent (.write addr size v))

end Sys2Proof.Machine
end

