-- ==== Sys2Proof/Machine/Step.lean ====
section
/-! DEFINITION. The step of the machine, one clock cycle, and where a command waits to be run. -/

namespace Sys2Proof.Machine

/-- One step: one clock cycle (Sequencer.lean). -/
def step (s : State) : Host.Outcome State Fault Refusal := cycle s

/-- `s` with the command word `w` accepted and at its completion point: in CMD, BUSY = 1, no cycle to go, and an idle
host in the next cycle, so that the very next step runs it (R34, R128; log 16). -/
def State.withFetchWord (s : State) (nbits w : Nat) : State :=
  { s with cmd := tableWord nbits w, running := some 0, pending := .idle :: s.pending }

end Sys2Proof.Machine
end

