-- ==== Sys2Proof/Machine/Asm.lean ====
section
/-! DEFINITION. The assembler (30_encoding.md R129, R130): a well-formed statement gives the host's accesses, an
ill-formed one is refused; a host program is a list of statements. -/

namespace Sys2Proof.Machine

/-- The offset of CMD (R32). -/
def cmdAddr : Addr := 0x0004#16

/-- A command statement stands for `WR CMD, <its encoding>` (R129). -/
def issue (i : Instr) : HostEvent := .write cmdAddr .word (encode i)

/-- An 8-bit literal. -/
def lit8 (v : Nat) : Byte := BitVec.ofNat 8 v

/-- A block-index literal. -/
def lit16 (v : Nat) : BitVec 16 := BitVec.ofNat 16 v

/-- `offset(reg)` for a name: the map of R32. Element e of an array at base A is the word at A + 4·e. -/
def nameOffset : RegName → Nat
  | .id => 0x000
  | .cmd => 0x004
  | .status => 0x008
  | .err => 0x00C
  | .intStat => 0x010
  | .intEn => 0x014
  | .cfgN => 0x018
  | .cfgNpar => 0x01C
  | .cfgPrim => 0x020
  | .cfgFcr => 0x024
  | .bufLen => 0x028
  | .result => 0x02C
  | .locL => 0x030
  | .nroots => 0x034
  | .ncorr => 0x038
  | .totalCorr => 0x03C
  | .nfail => 0x040
  | .nblk => 0x044
  | .syn j => 0x0400 + 4 * j
  | .lambda i => 0x0800 + 4 * i
  | .omega i => 0x0C00 + 4 * i
  | .gen i => 0x1000 + 4 * i
  | .root k => 0x1400 + 4 * k
  | .posn k => 0x1800 + 4 * k
  | .mag k => 0x1C00 + 4 * k
  | .exp i => 0x2000 + 4 * i
  | .log i => 0x2400 + 4 * i
  | .bstat b => 0x2800 + 4 * b
  | .buf w => 0x4000 + 4 * w

/-- `offset(reg)` (R129). -/
def regOffset : Reg → Addr
  | .name r => BitVec.ofNat 16 (nameOffset r)
  | .offset off => BitVec.ofNat 16 off

/-- The accesses a statement stands for, its literals taken to fit (R129, R130). -/
def eventsOf : Stmt → List HostEvent
  | .nop => [issue .nop]
  | .init => [issue .init]
  | .gfAdd a b => [issue (.gfAdd (lit8 a) (lit8 b))]
  | .gfMul a b => [issue (.gfMul (lit8 a) (lit8 b))]
  | .gfDiv a b => [issue (.gfDiv (lit8 a) (lit8 b))]
  | .gfInv a => [issue (.gfInv (lit8 a))]
  | .gfPow a e => [issue (.gfPow (lit8 a) (lit8 e))]
  | .synd blk => [issue (.synd (lit16 blk))]
  | .bm => [issue .bm]
  | .chien => [issue .chien]
  | .forney => [issue .forney]
  | .correct blk => [issue (.correct (lit16 blk))]
  | .decodeBlk blk => [issue (.decodeBlk (lit16 blk))]
  | .decodeBuf => [issue .decodeBuf]
  | .wr reg v => [.write (regOffset reg) .word (BitVec.ofNat 32 v)]
  | .rd reg => [.read (regOffset reg) .word]
  | .wait => [.poll]
  | .gfSub a b => [issue (.gfAdd (lit8 a) (lit8 b))]
  | .gfSqr a => [issue (.gfMul (lit8 a) (lit8 a))]
  | .gfAlpha e => [issue (.gfPow 0x02#8 (lit8 e))]
  | .clrErr => [.write 0x000C#16 .word 0x1FF#32, .write 0x0010#16 .word 0x3#32]
  | .decodeSteps blk =>
    [issue (.synd (lit16 blk)), .poll, issue .bm, .poll, issue .chien, .poll, issue .forney, .poll,
      issue (.correct (lit16 blk)), .poll]

/-- The assembler on one statement: none is a refused literal (R129: "It never truncates"). -/
def assemble (p : Stmt) : Option (List HostEvent) := if p.wf then some (eventsOf p) else none

/-- The assembler on a host program, "a list of these statements" (R129): the accesses of its statements in order; none if
one of them is refused. -/
def assembleProgram : List Stmt → Option (List HostEvent)
  | [] => some []
  | p :: ps =>
    match assemble p, assembleProgram ps with
    | some e, some es => some (e ++ es)
    | _, _ => none

end Sys2Proof.Machine
end

