-- ==== Sys2Proof/Safety.lean ====
section
/-! DEFINITION. The terms claims are stated in: what a state that a run can reach satisfies (`State.Inv`), the states of
the core's state machine (70_reset_and_hazards.md R352), and the field operations by their mathematical meaning, with no
table (40_field_engine.md R150, R151), against which the table-driven ones are judged. -/

namespace Sys2Proof.Machine

/-! ### The field without tables (R150, R151) -/

/-- The product of two elements as polynomials over GF(2), not yet reduced: `⊕_i b[i] · a · x^i`. -/
def clmul (a b : Byte) : BitVec 16 :=
  (List.range 8).foldl (fun acc i => if b.getLsbD i then acc ^^^ (a.zeroExtend 16 <<< i) else acc) 0#16

/-- The remainder modulo PRIM of a polynomial of degree below 16: for i = 7 down to 0, x^(8+i) is cleared by
subtracting x^i · PRIM. PRIM has degree 8 (bit 8 set). -/
def polyMod (prim : BitVec 9) (v : BitVec 16) : Byte :=
  ([7, 6, 5, 4, 3, 2, 1, 0].foldl
    (fun acc i => if acc.getLsbD (8 + i) then acc ^^^ (prim.zeroExtend 16 <<< i) else acc) v).extractLsb' 0 8

/-- Multiplication "as polynomials modulo PRIM" (R151, R158). -/
def polyMul (prim : BitVec 9) (a b : Byte) : Byte := polyMod prim (clmul a b)

/-- `a` to the power `e` by repeated multiplication; the empty product is 1. -/
def polyPow (prim : BitVec 9) (a : Byte) : Nat → Byte
  | 0 => 0x01#8
  | e + 1 => polyMul prim (polyPow prim a e) a

/-- PRIM is legal (R8, R313): it has degree 8 and x has order 255 modulo it. -/
def Primitive (prim : BitVec 9) : Prop :=
  prim.getLsbD 8 = true ∧ polyPow prim 0x02#8 255 = 0x01#8 ∧
    ∀ e, 0 < e → e < 255 → polyPow prim 0x02#8 e ≠ 0x01#8

/-- `⊕_i P[i] ⊗ x^i`, the value of a polynomial at x by its powers (R14), for the coefficients below `n`. -/
def powerSum (t : Tables) (n : Nat) (p : Nat → Byte) (x : Byte) : Byte := xorSum n fun i => gfMul t (p i) (gfPow t x i)

/-! ### The states of R352 -/

/-- The three states of R352. -/
inductive Phase where
  | uninitialized
  | ready
  | busy
deriving DecidableEq, Repr

/-- R352's conditions. -/
def State.phase (s : State) : Phase :=
  if s.busy then .busy else if s.initDone then .ready else .uninitialized

/-! ### The invariant -/

/-- Every array has its size (R55 to R64). -/
structure State.Sized (s : State) : Prop where
  syn : s.syn.length = s.build.nparMax
  lam : s.lam.length = s.build.nparMax + 1
  omega : s.omega.length = s.build.nparMax
  gen : s.gen.length = s.build.nparMax + 1
  root : s.root.length = s.build.nparMax
  posn : s.posn.length = s.build.nparMax
  mag : s.mag.length = s.build.nparMax
  exp : s.tab.exp.length = 256
  log : s.tab.log.length = 256
  bstat : s.bstat.length = s.build.blkMax

/-- What INIT leaves for good (R45, R109, R161): a legal configuration, its tables and its generator. -/
structure State.Ready (s : State) : Prop where
  cfg : s.cfgLegal = true
  tab : buildTables s.cfgPrim = some s.tab
  gen : s.gen = buildGenerator s.tab s.build.nparMax s.npar s.fcr

/-- Before INIT has succeeded no command but NOP and INIT has run since reset (R72, R312). -/
structure State.Untouched (s : State) : Prop where
  synV : s.synV = false
  synZero : s.synZero = false
  result : s.result = 0#8
  locL : s.locL = 0#8
  nroots : s.nroots = 0#8
  ncorr : s.ncorr = 0#8
  totalCorr : s.totalCorr = 0#16
  nfail : s.nfail = 0#16
  nblk : s.nblk = 0#16

/-- What every state a run reaches from reset satisfies, and every step keeps. -/
structure State.Inv (s : State) : Prop where
  /-- The build is one of R9. -/
  build : s.build.legal = true
  /-- BUF is in canonical form and inside BUF_BYTES (R65). -/
  bufWf : Memory.wf s.buf = true
  bufBelow : Memory.below s.build.bufBytes s.buf = true
  sized : s.Sized
  /-- Reserved bits of a BSTAT entry are 0 (R64). -/
  bstatLayout : ∀ v ∈ s.bstat, v &&& ~~~bstatLayout = 0#32
  ready : s.initDone = true → s.Ready
  untouched : s.initDone = false → s.Untouched
  /-- The valid bits chain (R71). -/
  locChain : s.locV = true → s.synV = true
  rootChain : s.rootV = true → s.locV = true
  magChain : s.magV = true → s.rootV = true
  /-- A locator in LAMBDA has constant term 1 (R56), no term above L (R212). -/
  lamOne : s.locV = true → rd s.lam 0 = 0x01#8
  lamDeg : s.locV = true → ∀ i, s.locL.toNat < i → rd s.lam i = 0#8
  /-- 0 ≤ L ≤ NPAR (R48). -/
  locLe : s.initDone = true → s.locL.toNat ≤ s.npar
  /-- A position in POSN lies in the block (R60). -/
  posnLt : s.rootV = true → ∀ k, (rd s.posn k).toNat < s.n
  /-- An exponent in ROOT is at most 254 (R59). -/
  rootLt : s.rootV = true → ∀ k, (rd s.root k).toNat < 255

end Sys2Proof.Machine
end

