-- ==== Sys2Proof/Certificates/Slice0/Obligations.lean ====
section
/-! DEFINITION. The statements for the provers. Each docstring names the rule of spec/ it formalises, or says what it is
derived from. The helpers under `Sys2Proof.Claims` write the spec's own terms out in full, apart from the model's
operations of the same meaning. -/

open Sys2Proof Sys2Proof.Machine

namespace Sys2Proof.Claims

/-- R321's list, with the ERR bit as a mask: "sets these at its completion point, and nothing else". -/
def rejectedWith (mask : BitVec 9) (s : State) : State :=
  { s with err := s.err ||| mask, intStat := s.intStat ||| 3#2, res := .rejected, running := none }

/-- R322's list, apart from the command's own writes. -/
def completedWith (r : Res) (s : State) : State :=
  { s with res := r, intStat := s.intStat ||| 1#2, running := none }

/-- The core sets an ERR bit outside a command's end (R92, R101, R45): the bit and ERRI. -/
def flaggedWith (mask : BitVec 9) (s : State) : State := { s with err := s.err ||| mask, intStat := s.intStat ||| 2#2 }

/-- A block index that R96 and R317 accept. -/
def InRange (blk : BitVec 16) (s : State) : Prop :=
  blk.toNat < s.build.blkMax ∧ (blk.toNat + 1) * s.cfgN.toNat ≤ s.build.bufBytes

/-- A BUF_LEN that R283 accepts. -/
def BufLenOk (s : State) : Prop :=
  s.bufLen.toNat ≤ s.build.bufBytes ∧ s.bufLen.toNat % s.cfgN.toNat = 0 ∧
    s.bufLen.toNat / s.cfgN.toNat ≤ s.build.blkMax

/-- The configuration checks of R161 and R313 that precede the tables. -/
def SizesOk (s : State) : Prop :=
  1 ≤ s.cfgN.toNat ∧ s.cfgN.toNat ≤ 255 ∧ s.cfgN.toNat ≤ s.build.bufBytes ∧ s.cfgNpar.toNat % 2 = 0 ∧
    s.cfgNpar.toNat ≤ s.build.nparMax ∧ s.cfgNpar.toNat < s.cfgN.toNat

/-- The first byte of a block in BUF: `blk · N` (R96). -/
def base (blk : BitVec 16) (s : State) : Nat := blk.toNat * s.cfgN.toNat

/-- Syndrome j of the block of BUF that starts at `b`: `⊕_i r_i ⊗ ρ_j^i` with `r_i = BUF[b + N - 1 - i]` (R95, R190, R193),
by powers and not by Horner's rule. -/
def syndrome (t : Tables) (fcr n : Nat) (m : Memory) (b j : Nat) : Byte :=
  powerSum t n (fun i => Memory.read m (b + n - 1 - i)) (t.alpha ((fcr + j) % 255))

/-- Every syndrome of the block of BUF that starts at `b` is 0: the block is a codeword (R192). -/
def Codeword (s : State) (m : Memory) (b : Nat) : Prop :=
  ∀ j, j < s.cfgNpar.toNat → syndrome s.tab s.cfgFcr.toNat s.cfgN.toNat m b j = 0#8

/-- Λ'(y), the odd-degree terms (R251). -/
def derivative (s : State) (y : Byte) : Byte :=
  xorSum (s.cfgNpar.toNat + 1) fun i => if i % 2 = 1 then gfMul s.tab (rd s.lam i) (gfPow s.tab y (i - 1)) else 0#8

/-- The denominator of root k: Λ'(X^(-1)) with X = α^ROOT[k] (R252, R254). -/
def denominator (s : State) (k : Nat) : Byte := derivative s (s.tab.alpha (255 - (rd s.root k).toNat))

/-- The words R126 calls illegal. -/
def IllegalWord (w : Word) : Prop :=
  let opc := w.toNat % 256
  (0x02 ≤ opc ∧ opc ≤ 0x0F) ∨ (0x15 ≤ opc ∧ opc ≤ 0x1F) ∨ (0x25 ≤ opc ∧ opc ≤ 0x2F) ∨ 0x32 ≤ opc ∨
  (opc ∈ [0x00, 0x01, 0x21, 0x22, 0x23, 0x31] ∧ w.toNat / 256 ≠ 0) ∨
  (opc ∈ [0x10, 0x11, 0x12, 0x13, 0x14, 0x20, 0x24, 0x30] ∧ w.toNat / 16777216 ≠ 0) ∨
  (opc = 0x13 ∧ w.toNat / 65536 % 256 ≠ 0)

/-- The literals of a statement fit: a, b, e below 256, blk below 65536 (R129); an element of a register name in its
window, an offset and a bus word in their widths (log 19). -/
def LiteralsFit : Stmt → Prop
  | .gfAdd a b | .gfMul a b | .gfDiv a b | .gfPow a b | .gfSub a b => a ≤ 255 ∧ b ≤ 255
  | .gfInv a | .gfSqr a | .gfAlpha a => a ≤ 255
  | .synd blk | .correct blk | .decodeBlk blk | .decodeSteps blk => blk ≤ 65535
  | .wr (.offset off) v => off ≤ 65535 ∧ v ≤ 4294967295
  | .wr (.name r) v => ElementFits r ∧ v ≤ 4294967295
  | .rd (.offset off) => off ≤ 65535
  | .rd (.name r) => ElementFits r
  | .nop | .init | .bm | .chien | .forney | .decodeBuf | .wait | .clrErr => True
where
  /-- An element's window has 256 words, BUF's 12288 up to 2^ADDR_W (R32). -/
  ElementFits : RegName → Prop
    | .syn e | .lambda e | .omega e | .gen e | .root e | .posn e | .mag e | .exp e | .log e | .bstat e => e ≤ 255
    | .buf w => w ≤ 12287
    | _ => True

/-- `i` is the command that a statement stands for, with the statement's literals as numbers (R129, R130); no command for
a statement that is not one command. -/
def StandsFor : Stmt → Instr → Prop
  | .nop, i => i = .nop
  | .init, i => i = .init
  | .bm, i => i = .bm
  | .chien, i => i = .chien
  | .forney, i => i = .forney
  | .decodeBuf, i => i = .decodeBuf
  | .gfAdd a b, i => ∃ a' b', i = .gfAdd a' b' ∧ a'.toNat = a ∧ b'.toNat = b
  | .gfSub a b, i => ∃ a' b', i = .gfAdd a' b' ∧ a'.toNat = a ∧ b'.toNat = b
  | .gfMul a b, i => ∃ a' b', i = .gfMul a' b' ∧ a'.toNat = a ∧ b'.toNat = b
  | .gfSqr a, i => ∃ a', i = .gfMul a' a' ∧ a'.toNat = a
  | .gfDiv a b, i => ∃ a' b', i = .gfDiv a' b' ∧ a'.toNat = a ∧ b'.toNat = b
  | .gfInv a, i => ∃ a', i = .gfInv a' ∧ a'.toNat = a
  | .gfPow a e, i => ∃ a' e', i = .gfPow a' e' ∧ a'.toNat = a ∧ e'.toNat = e
  | .gfAlpha e, i => ∃ e', i = .gfPow 0x02#8 e' ∧ e'.toNat = e
  | .synd blk, i => ∃ blk', i = .synd blk' ∧ blk'.toNat = blk
  | .correct blk, i => ∃ blk', i = .correct blk' ∧ blk'.toNat = blk
  | .decodeBlk blk, i => ∃ blk', i = .decodeBlk blk' ∧ blk'.toNat = blk
  | .wr _ _, _ | .rd _, _ | .wait, _ | .clrErr, _ | .decodeSteps _, _ => False

/-- The statement is one command. -/
def OneCommand : Stmt → Prop
  | .wr _ _ | .rd _ | .wait | .clrErr | .decodeSteps _ => False
  | _ => True

/-- What the core's address map (R32) has at a register name. -/
def namedLoc : RegName → Loc
  | .id => .id
  | .cmd => .cmd
  | .status => .status
  | .err => .err
  | .intStat => .intStat
  | .intEn => .intEn
  | .cfgN => .cfgN
  | .cfgNpar => .cfgNpar
  | .cfgPrim => .cfgPrim
  | .cfgFcr => .cfgFcr
  | .bufLen => .bufLen
  | .result => .result
  | .locL => .locL
  | .nroots => .nroots
  | .ncorr => .ncorr
  | .totalCorr => .totalCorr
  | .nfail => .nfail
  | .nblk => .nblk
  | .syn e => .arr .syn e
  | .lambda e => .arr .lam e
  | .omega e => .arr .omega e
  | .gen e => .arr .gen e
  | .root e => .arr .root e
  | .posn e => .arr .posn e
  | .mag e => .arr .mag e
  | .exp e => .arr .exp e
  | .log e => .arr .log e
  | .bstat b => .bstat b
  | .buf w => .bufWord (4 * w)

/-- An offset is that of a register: the number itself, or where the core has the name; a BUF word beyond BUF_BYTES is
reserved (R32). -/
def IsOffsetOf (b : Build) (off : Addr) : Reg → Prop
  | .offset n => off.toNat = n
  | .name (.buf w) => off.toNat = 0x4000 + 4 * w
  | .name r => off.toNat % 4 = 0 ∧ locate b off = namedLoc r

/-- The next cycle does not reset the core. -/
def NoRst (s : State) : Prop := ∀ rest, s.pending ≠ .rst :: rest

/-- The core's own action in a cycle at whose start the running command had `k` cycles to go: its end at its completion
point (R103, R126, R128), else one cycle less (R380). `s` is the state the host's event of the cycle left (log 2). -/
def engine (k : Nat) (s : State) : Host.Outcome State Fault Refusal :=
  match k with
  | 0 =>
    match decode s.cmd with
    | .ok i => exec i s
    | .error _ => .next (rejectedWith 0x001#9 s)
  | k + 1 => .next { s with running := some k }

/-- The valid bits, in the order of R71's columns. -/
def validBits (s : State) : Bool × Bool × Bool × Bool := (s.synV, s.locV, s.rootV, s.magV)

/-- SEQ (R316) would reject the command. -/
def SeqFails : Instr → State → Prop
  | .bm, s => s.synV = false
  | .chien, s => s.locV = false
  | .forney, s => s.rootV = false
  | .correct _, s => s.magV = false
  | _, _ => False

/-- RANGE (R317) would reject the command. -/
def RangeFails : Instr → State → Prop
  | .synd blk, s => ¬ InRange blk s
  | .correct blk, s => ¬ InRange blk s
  | .decodeBlk blk, s => ¬ InRange blk s
  | .decodeBuf, s => ¬ BufLenOk s
  | _, _ => False

/-- CFG (R313) would reject the command. -/
def CfgFails : Instr → State → Prop
  | .init, s => s.initDone = false ∧ ¬ (SizesOk s ∧ Primitive s.cfgPrim)
  | _, _ => False

/-- DOMAIN (R314) would reject the command. -/
def DomainFails : Instr → State → Prop
  | .gfDiv _ b, _ => b = 0#8
  | .gfInv a, _ => a = 0#8
  | .forney, s => ∃ k, k < s.nroots.toNat ∧ denominator s k = 0#8
  | _, _ => False

/-- NOT_INIT (R312) would reject the command. -/
def NotInitFails (i : Instr) (s : State) : Prop := s.initDone = false ∧ i ≠ .nop ∧ i ≠ .init

/-- What R73 lets a command change beside CMD, RES, INT_STAT, ERR and BUSY: `t` is `s` but for the listed state. `draws`
is the model's count of free values (log 10). -/
def Frame (i : Instr) (s t : State) : Prop :=
  let e : State := { s with res := t.res, intStat := t.intStat, err := t.err, running := t.running }
  match i with
  | .nop => t = e
  | .init => t = { e with tab := t.tab, gen := t.gen, initDone := t.initDone, draws := t.draws }
  | .gfAdd _ _ | .gfMul _ _ | .gfDiv _ _ | .gfInv _ | .gfPow _ _ => t = { e with result := t.result }
  | .synd _ =>
    t = { e with syn := t.syn, synZero := t.synZero, synV := t.synV, locV := t.locV, rootV := t.rootV, magV := t.magV }
  | .bm => t = { e with lam := t.lam, locL := t.locL, locV := t.locV, rootV := t.rootV, magV := t.magV }
  | .chien =>
    t = { e with root := t.root, posn := t.posn, nroots := t.nroots, rootV := t.rootV, magV := t.magV }
  | .forney => t = { e with omega := t.omega, mag := t.mag, magV := t.magV }
  | .correct _ => t = { e with buf := t.buf, ncorr := t.ncorr }
  | .decodeBlk _ =>
    t = { e with
      syn := t.syn, synZero := t.synZero, lam := t.lam, locL := t.locL, root := t.root, posn := t.posn,
      nroots := t.nroots, omega := t.omega, mag := t.mag, synV := t.synV, locV := t.locV, rootV := t.rootV,
      magV := t.magV, buf := t.buf, ncorr := t.ncorr, bstat := t.bstat }
  | .decodeBuf =>
    t = { e with
      syn := t.syn, synZero := t.synZero, lam := t.lam, locL := t.locL, root := t.root, posn := t.posn,
      nroots := t.nroots, omega := t.omega, mag := t.mag, synV := t.synV, locV := t.locV, rootV := t.rootV,
      magV := t.magV, buf := t.buf, ncorr := t.ncorr, bstat := t.bstat, totalCorr := t.totalCorr, nfail := t.nfail,
      nblk := t.nblk }

/-- The BUF bytes a command may write (R108). -/
def MayWrite (i : Instr) (s : State) (a : Nat) : Prop :=
  match i with
  | .correct blk => ∃ k, k < s.nroots.toNat ∧ a = base blk s + (rd s.posn k).toNat
  | .decodeBlk blk => base blk s ≤ a ∧ a < base blk s + s.cfgN.toNat
  | .decodeBuf => a < s.bufLen.toNat
  | _ => False

/-- DECODE.BLK 0, DECODE.BLK 1, … for the first `nb` blocks. -/
def blockByBlock : Nat → State → Host.Outcome State Fault Refusal
  | 0, s => .next s
  | nb + 1, s =>
    match blockByBlock nb s with
    | .next u => exec (.decodeBlk (BitVec.ofNat 16 nb)) u
    | .fault f => .fault f
    | .refused r => .refused r

/-- The reset value of every register R72 gives one, and the layout of R64 in BSTAT. -/
def AtReset (s : State) : Prop :=
  s.locValue .id = 0x52530100#32 ∧ s.cmd = 0#32 ∧ s.statusWord = 0#32 ∧ s.err = 0#9 ∧ s.intStat = 0#2 ∧
  s.intEn = 0#2 ∧ s.irq = false ∧ s.cfgN = 0#8 ∧ s.cfgNpar = 0#8 ∧ s.cfgPrim = 0#9 ∧ s.cfgFcr = 0#8 ∧
  s.bufLen = 0#16 ∧ s.result = 0#8 ∧ s.locL = 0#8 ∧ s.nroots = 0#8 ∧ s.ncorr = 0#8 ∧ s.totalCorr = 0#16 ∧
  s.nfail = 0#16 ∧ s.nblk = 0#16 ∧ s.running = none ∧ ∀ v ∈ s.bstat, v &&& 0x7FFF00F8#32 = 0#32

/-- An aligned 4-byte write is the host's next event. -/
def Writes (s : State) (addr : Addr) (v : Word) (rest : List HostEvent) : Prop :=
  s.pending = .write addr .word v :: rest

/-- An aligned 4-byte read is the host's next event. -/
def Reads (s : State) (addr : Addr) (rest : List HostEvent) : Prop := s.pending = .read addr .word :: rest

/-- The offsets whose write R101 drops with ERR.BUSY_WR. -/
def BusyTarget (b : Build) (addr : Addr) : Prop :=
  addr.toNat ∈ [0x004, 0x018, 0x01C, 0x020, 0x024, 0x028] ∨
    (0x4000 ≤ addr.toNat ∧ addr.toNat < 0x4000 + b.bufBytes)

/-- The reserved offsets of R32 and R98. -/
def ReservedOffset (b : Build) (addr : Addr) : Prop :=
  (0x048 ≤ addr.toNat ∧ addr.toNat < 0x400) ∨ (0x2C00 ≤ addr.toNat ∧ addr.toNat < 0x4000) ∨
    0x4000 + b.bufBytes ≤ addr.toNat

/-- The windows of byte arrays and tables, by their bases (R32). -/
def windows (s : State) : List (Nat × List Byte) :=
  [(0x0400, s.syn), (0x0800, s.lam), (0x0C00, s.omega), (0x1000, s.gen), (0x1400, s.root), (0x1800, s.posn),
    (0x1C00, s.mag), (0x2000, s.tab.exp), (0x2400, s.tab.log)]

/-- The registers R102 leaves defined while a command runs, and their words (R31 to R46). -/
def definedRegisters (s : State) : List (Nat × Word) :=
  [(0x000, 0x52530100#32), (0x004, s.cmd), (0x008, s.statusWord), (0x00C, s.err.zeroExtend 32),
    (0x010, s.intStat.zeroExtend 32), (0x014, s.intEn.zeroExtend 32), (0x018, s.cfgN.zeroExtend 32),
    (0x01C, s.cfgNpar.zeroExtend 32), (0x020, s.cfgPrim.zeroExtend 32), (0x024, s.cfgFcr.zeroExtend 32),
    (0x028, s.bufLen.zeroExtend 32)]

/-- The result registers and their words (R47 to R53). -/
def resultRegisters (s : State) : List (Nat × Word) :=
  [(0x02C, s.result.zeroExtend 32), (0x030, s.locL.zeroExtend 32), (0x034, s.nroots.zeroExtend 32),
    (0x038, s.ncorr.zeroExtend 32), (0x03C, s.totalCorr.zeroExtend 32), (0x040, s.nfail.zeroExtend 32),
    (0x044, s.nblk.zeroExtend 32)]

end Sys2Proof.Claims

open Sys2Proof.Claims

/-! ### Encoding -/

/-- Derived from R125, R126 and R128: a word decodes to a command exactly when it is that command's word. -/
def Obligations.DecodeIffEncode : Prop := ∀ (w : Word) (i : Instr), decode w = .ok i ↔ encode i = w

/-- R126: which words are illegal, and what an illegal word does at its completion point. -/
def Obligations.IllegalWordIsRejected : Prop :=
  ∀ w : Word, (IllegalWord w ↔ ∀ i, decode w ≠ .ok i) ∧
    ∀ s : State, s.cmd = w → s.running = some 0 → s.pending = [] → IllegalWord w →
      step s = .next (rejectedWith 0x001#9 s)

/-- Words of 95_test_vectors.md V11, each with the command R129 gives it. A sanity statement. -/
def Obligations.SpecWordsDecode : Prop :=
  decode 0x00000000#32 = .ok .nop ∧ decode 0x00000001#32 = .ok .init ∧
  decode 0x00CA5310#32 = .ok (.gfAdd 0x53#8 0xCA#8) ∧ decode 0x00800211#32 = .ok (.gfMul 0x02#8 0x80#8) ∧
  decode 0x00801D12#32 = .ok (.gfDiv 0x1D#8 0x80#8) ∧ decode 0x00005313#32 = .ok (.gfInv 0x53#8) ∧
  decode 0x00080214#32 = .ok (.gfPow 0x02#8 8#8) ∧ decode 0x00002120#32 = .ok (.synd 33#16) ∧
  decode 0x00000021#32 = .ok .bm ∧ decode 0x00000022#32 = .ok .chien ∧ decode 0x00000023#32 = .ok .forney ∧
  decode 0x00000024#32 = .ok (.correct 0#16) ∧ decode 0x0000FF30#32 = .ok (.decodeBlk 255#16) ∧
  decode 0x00000031#32 = .ok .decodeBuf

/-- Derived from R129 and R130, with log 19 for the literals of WR and RD: the assembler refuses a statement exactly when
one of its literals does not fit, and never truncates. A statement that is one command, a pseudo-instruction among them,
gives one CMD write, whose word decodes to that command with the statement's literals; WR and RD give their access at the
register's offset; WAIT, CLRERR and DECODE.STEPS give their expansions. A program is refused exactly when a statement of
it is, and gives the accesses of its statements in order. -/
def Obligations.AssemblerNeverTruncates : Prop :=
  (∀ p : Stmt, (assemble p = none ↔ ¬ LiteralsFit p) ∧
    (LiteralsFit p → OneCommand p →
      ∃ w i, assemble p = some [.write 0x0004#16 .word w] ∧ decode w = .ok i ∧ StandsFor p i)) ∧
  (∀ (reg : Reg) (v : Nat), LiteralsFit (.wr reg v) →
    ∃ off w, assemble (.wr reg v) = some [.write off .word w] ∧ w.toNat = v ∧ ∀ b : Build, IsOffsetOf b off reg) ∧
  (∀ reg : Reg, LiteralsFit (.rd reg) →
    ∃ off, assemble (.rd reg) = some [.read off .word] ∧ ∀ b : Build, IsOffsetOf b off reg) ∧
  assemble .wait = some [.poll] ∧
  assemble .clrErr = some [.write 0x000C#16 .word 0x1FF#32, .write 0x0010#16 .word 0x3#32] ∧
  (∀ blk, blk ≤ 65535 → ∃ (b : BitVec 16) (w1 w2 w3 w4 w5 : Word), b.toNat = blk ∧
    assemble (.decodeSteps blk) = some
      [.write 0x0004#16 .word w1, .poll, .write 0x0004#16 .word w2, .poll, .write 0x0004#16 .word w3, .poll,
        .write 0x0004#16 .word w4, .poll, .write 0x0004#16 .word w5, .poll] ∧
    decode w1 = .ok (.synd b) ∧ decode w2 = .ok .bm ∧ decode w3 = .ok .chien ∧ decode w4 = .ok .forney ∧
    decode w5 = .ok (.correct b)) ∧
  ∀ ps : List Stmt, (assembleProgram ps = none ↔ ∃ p ∈ ps, assemble p = none) ∧
    ∀ es, assembleProgram ps = some es → ps.flatMap (fun p => (assemble p).getD []) = es

/-! ### The step -/

/-- Derived from R103, R128 and R354: at the completion point a step is the decoded command's effect, on the state the
host's event of the same cycle leaves (log 2). -/
def Obligations.StepRunsDecodedCommand : Prop :=
  ∀ (s : State) (i : Instr), s.running = some 0 → decode s.cmd = .ok i →
    (s.pending = [] → step s = exec i s) ∧
    (∀ rest, s.pending = .idle :: rest → step s = exec i { s with pending := rest }) ∧
    (∀ addr size rest, s.pending = .read addr size :: rest →
      step s = exec i ({ s with pending := rest }.hostRead addr size)) ∧
    (∀ addr size v rest, s.pending = .write addr size v :: rest →
      step s = exec i ({ s with pending := rest }.hostWrite addr size v)) ∧
    (∀ rest, s.pending = .poll :: rest → step s = exec i (s.hostRead 0x0008#16 .word))

/-- Derived from R127, R325 and R356: every step answers a next state, so the core never stops (log 15). -/
def Obligations.EveryStepAnswers : Prop := ∀ s : State, ∃ t, step s = .next t

/-- R34: a CMD write while idle is stored, legal or not, and raises BUSY; while busy (and not in the completing cycle, which
is `StepRunsDecodedCommand`'s) it is dropped with BUSY_WR; a read returns the stored word; the reset value is 0. -/
def Obligations.CmdRegister : Prop :=
  (∀ (s : State) w rest, s.running = none → Writes s 0x0004#16 w rest →
    ∃ t : State, step s = .next t ∧ t.running ≠ none ∧
      t = { s with pending := rest, cmd := w, running := t.running, latencies := t.latencies }) ∧
  (∀ (s : State) k w rest, s.running = some (k + 1) → Writes s 0x0004#16 w rest →
    step s = .next (flaggedWith 0x010#9 { s with pending := rest, running := some k })) ∧
  (∀ (s t : State) rest, Reads s 0x0004#16 rest → step s = .next t → t.rdata = s.cmd ∧ t.cmd = s.cmd) ∧
  State.reset.cmd = 0#32

/-- Derived from R380: a command holds BUSY for exactly the cycles it was given and then completes, whatever the word,
with an idle host. -/
def Obligations.BusyLastsItsLatency : Prop :=
  ∀ (k : Nat) (s : State), s.running = some k → s.pending = [] →
    Host.Core.run Sys2Proof.core k s = .next { s with running := some 0 } ∧
    ∃ t : State, Host.Core.run Sys2Proof.core (k + 1) s = .next t ∧ t.running = none

/-- Derived from R130, R103 and R380, with log 19 (WAIT is one event that repeats) and log 2 (the poll of the completing
cycle still reads BUSY = 1): the host's WAIT loop ends k + 2 steps after a command that has k cycles to go, having read
BUSY = 0, with DONE set. -/
def Obligations.WaitLoopEnds : Prop :=
  ∀ (k : Nat) (s : State) rest, s.running = some k → s.pending = .poll :: rest →
    ∃ t : State, Host.Core.run Sys2Proof.core (k + 2) s = .next t ∧ t.pending = rest ∧ t.running = none ∧
      t.rdata.getLsbD 0 = false ∧ t.intStat.getLsbD 0 = true

/-- Derived from R103 point 5 and R38: DONE is set in the cycle in which BUSY falls, reset apart. -/
def Obligations.DoneWhenBusyFalls : Prop :=
  ∀ s t : State, NoRst s → step s = .next t → s.busy = true → t.busy = false → t.intStat.getLsbD 0 = true

/-- Derived from R352, with R128 for the accepted CMD write, R161 for INIT and log 2 for a host event in the completing
cycle: where each state may go, what takes it there, and INIT's way to Ready. -/
def Obligations.PhaseMachine : Prop :=
  ∀ s t : State, step s = .next t →
    ((∃ rest, s.pending = .rst :: rest) → t.phase = .uninitialized) ∧
    (∀ w rest, s.phase ≠ .busy → Writes s 0x0004#16 w rest → t.phase = .busy) ∧
    (NoRst s → s.running = some 0 → decode s.cmd = .ok .init → SizesOk s → Primitive s.cfgPrim → t.phase = .ready) ∧
    (NoRst s →
      (s.phase = .uninitialized → t.phase = .uninitialized ∨ t.phase = .busy) ∧
      (s.phase = .ready → t.phase = .ready ∨ t.phase = .busy) ∧
      (s.phase = .busy → t.phase = .busy ∨ t.phase = (if s.initDone then .ready else .uninitialized) ∨
        (decode s.cmd = .ok .init ∧ t.phase = .ready)))

/-! ### How a command ends -/

/-- Derived from R321, with R157 and I2 for the tables after a failed build (log 10): a rejected command changes what R321
lists and nothing else. -/
def Obligations.RejectionIsPrecise : Prop :=
  ∀ (i : Instr) (s t : State), exec i s = .next t → t.res = .rejected →
    ∃ m, m ∈ [0x002#9, 0x004#9, 0x008#9, 0x020#9, 0x040#9] ∧
      (t = rejectedWith m s ∨
        (i = .init ∧ m = 0x004#9 ∧ t = { rejectedWith m s with tab := t.tab, draws := t.draws }))

/-- Derived from R322 and R103: a command ends with BUSY = 0 and DONE = 1; one that is not rejected sets no ERR bit and no
ERRI. -/
def Obligations.CompletionFlags : Prop :=
  ∀ (i : Instr) (s t : State), exec i s = .next t →
    t.running = none ∧ t.intStat.getLsbD 0 = true ∧
      (t.res ≠ .rejected → t.err = s.err ∧ t.intStat = s.intStat ||| 1#2)

/-- Derived from R36's table: which command may end with which result code, and that 5 and 6 are never produced. -/
def Obligations.ResultCodesPerCommand : Prop :=
  (∀ r : Res, r.code ≠ 5#3 ∧ r.code ≠ 6#3) ∧
  ∀ (i : Instr) (s t : State), exec i s = .next t →
    match i with
    | .bm => t.res ∈ [.ok, .uncorrDegree, .rejected]
    | .chien => t.res ∈ [.ok, .uncorrRoots, .rejected]
    | .decodeBlk _ => t.res ∈ [.ok, .uncorrDegree, .uncorrRoots, .uncorrRecheck, .rejected]
    | .decodeBuf => t.res ∈ [.ok, .bufFail, .rejected]
    | _ => t.res ∈ [.ok, .rejected]

/-- R312. -/
def Obligations.NotInitRejects : Prop :=
  ∀ (i : Instr) (s : State), i ≠ .nop → i ≠ .init → s.initDone = false →
    exec i s = .next (rejectedWith 0x002#9 s)

/-- R316. -/
def Obligations.OutOfSequenceRejects : Prop :=
  ∀ s : State, s.initDone = true →
    (s.synV = false → exec .bm s = .next (rejectedWith 0x020#9 s)) ∧
    (s.locV = false → exec .chien s = .next (rejectedWith 0x020#9 s)) ∧
    (s.rootV = false → exec .forney s = .next (rejectedWith 0x020#9 s)) ∧
    (s.magV = false → ∀ blk, exec (.correct blk) s = .next (rejectedWith 0x020#9 s))

/-- R317. -/
def Obligations.OutOfRangeRejects : Prop :=
  ∀ s : State, s.initDone = true →
    (∀ blk, ¬ InRange blk s →
      exec (.synd blk) s = .next (rejectedWith 0x040#9 s) ∧
      exec (.decodeBlk blk) s = .next (rejectedWith 0x040#9 s) ∧
      (s.magV = true → exec (.correct blk) s = .next (rejectedWith 0x040#9 s))) ∧
    (¬ BufLenOk s → exec .decodeBuf s = .next (rejectedWith 0x040#9 s))

/-- R314. -/
def Obligations.DomainRejects : Prop :=
  ∀ s : State, s.initDone = true →
    (∀ a, exec (.gfDiv a 0#8) s = .next (rejectedWith 0x008#9 s)) ∧
    exec (.gfInv 0#8) s = .next (rejectedWith 0x008#9 s) ∧
    (s.rootV = true → (∃ k, k < s.nroots.toNat ∧ denominator s k = 0#8) →
      exec .forney s = .next (rejectedWith 0x008#9 s))

/-- Derived from R320: of the checks of a legal command exactly the first that fails, in the order NOT_INIT, SEQ, RANGE,
CFG, DOMAIN, sets its ERR bit and rejects; if none fails the command is not rejected. -/
def Obligations.FirstFailedCheckWins : Prop :=
  ∀ (i : Instr) (s t : State), exec i s = .next t →
    (NotInitFails i s → t.err = s.err ||| 0x002#9 ∧ t.res = .rejected) ∧
    (¬ NotInitFails i s → SeqFails i s → t.err = s.err ||| 0x020#9 ∧ t.res = .rejected) ∧
    (¬ NotInitFails i s → ¬ SeqFails i s → RangeFails i s → t.err = s.err ||| 0x040#9 ∧ t.res = .rejected) ∧
    (CfgFails i s → t.err = s.err ||| 0x004#9 ∧ t.res = .rejected) ∧
    (¬ NotInitFails i s → ¬ SeqFails i s → DomainFails i s → t.err = s.err ||| 0x008#9 ∧ t.res = .rejected) ∧
    (¬ NotInitFails i s → ¬ SeqFails i s → ¬ RangeFails i s → ¬ CfgFails i s → ¬ DomainFails i s →
      t.err = s.err ∧ t.res ≠ .rejected)

/-! ### Whole-machine rules -/

/-- Derived from R73 and R108: the frame of every command. Every piece of state that R73 does not list for a command is
unchanged, and so is every byte of BUF outside those R108 lets it write. -/
def Obligations.CommandFrames : Prop :=
  ∀ (i : Instr) (s t : State), s.Inv → exec i s = .next t →
    Frame i s t ∧ ∀ a, ¬ MayWrite i s a → Memory.read t.buf a = Memory.read s.buf a

/-- R109: no command but INIT writes EXP, LOG or GEN, and INIT only while INIT_DONE = 0. -/
def Obligations.OnlyInitWritesTables : Prop :=
  ∀ (i : Instr) (s t : State), exec i s = .next t → (i ≠ .init ∨ s.initDone = true) → t.tab = s.tab ∧ t.gen = s.gen

/-- Derived from R9, R45 and R109: no cycle changes the build parameters; once INIT_DONE = 1, no cycle without reset
changes INIT_DONE, the configuration, the tables or the generator. -/
def Obligations.ConfigurationIsFrozen : Prop :=
  (∀ s t : State, step s = .next t → t.build = s.build) ∧
  ∀ s t : State, s.initDone = true → NoRst s → step s = .next t →
    t.initDone = true ∧ t.cfgN = s.cfgN ∧ t.cfgNpar = s.cfgNpar ∧ t.cfgPrim = s.cfgPrim ∧ t.cfgFcr = s.cfgFcr ∧
      t.tab = s.tab ∧ t.gen = s.gen

/-- Derived from R71's table: what each command does to the valid bits; a rejected command and every other command leave
them, reset clears them. -/
def Obligations.ValidBitChain : Prop :=
  (∀ (s t : State) rest, s.pending = .rst :: rest → step s = .next t → validBits t = (false, false, false, false)) ∧
  ∀ (i : Instr) (s t : State), exec i s = .next t →
    (t.res = .rejected → validBits t = validBits s) ∧
    (t.res ≠ .rejected →
      match i with
      | .synd _ => validBits t = (true, false, false, false)
      | .bm => validBits t = (s.synV, true, false, false)
      | .chien => validBits t = (s.synV, s.locV, true, false)
      | .forney => validBits t = (s.synV, s.locV, s.rootV, true)
      | .decodeBlk _ =>
        (t.synZero = true → validBits t = (true, false, false, false)) ∧
        (t.res = .uncorrDegree → validBits t = (true, true, false, false)) ∧
        (t.res = .uncorrRoots → validBits t = (true, true, true, false)) ∧
        (t.synZero = false → (t.res = .ok ∨ t.res = .uncorrRecheck) → validBits t = (true, true, true, true))
      | .decodeBuf =>
        (s.bufLen.toNat / s.cfgN.toNat = 0 → validBits t = validBits s) ∧
        (s.bufLen.toNat / s.cfgN.toNat ≠ 0 → t.synV = true ∧ (t.locV = true ∨ t.rootV = false) ∧
          (t.rootV = true ∨ t.magV = false))
      | _ => validBits t = validBits s)

/-- R72: what reset leaves, at power-on and at every edge with rst = 1; the configuration it leaves is illegal, so INIT
fails with ERR.CFG. -/
def Obligations.ResetValues : Prop :=
  AtReset State.reset ∧
  ∀ (s : State) rest, s.pending = .rst :: rest →
    ∃ t, step s = .next t ∧ AtReset t ∧ t.initDone = false ∧ validBits t = (false, false, false, false) ∧
      exec .init t = .next (rejectedWith 0x004#9 t)

/-- The invariant holds at reset. -/
def Obligations.InvAtReset : Prop := State.reset.Inv

/-- Derived from R45, R48, R54 to R65, R71, R109 and R212: every step keeps the invariant, from every state that has it. -/
def Obligations.StepKeepsInv : Prop := ∀ s t : State, s.Inv → step s = .next t → t.Inv

/-! ### The Field Engine and INIT -/

/-- Derived from R157, R8 and R313: build_tables succeeds exactly on the primitive polynomials, which are the sixteen
of R157. -/
def Obligations.TablesBuildIffPrimitive : Prop :=
  ∀ prim : BitVec 9, ((∃ t, buildTables prim = some t) ↔ Primitive prim) ∧
    (Primitive prim ↔ prim ∈ [0x11D#9, 0x12B#9, 0x12D#9, 0x14D#9, 0x15F#9, 0x163#9, 0x165#9, 0x169#9, 0x171#9, 0x187#9,
      0x18D#9, 0x1A9#9, 0x1C3#9, 0x1CF#9, 0x1E7#9, 0x1F5#9])

/-- Derived from R62, R63 and R157: EXP is forward exponentiation of x, LOG is its inverse, EXP[255] = 1, LOG[0] = 255. -/
def Obligations.TablesAreExpAndLog : Prop :=
  ∀ (prim : BitVec 9) (t : Tables), buildTables prim = some t →
    t.exp.length = 256 ∧ t.log.length = 256 ∧ rd t.exp 255 = 0x01#8 ∧ rd t.log 0 = 0xFF#8 ∧
    (∀ i, i < 255 → rd t.exp i = polyPow prim 0x02#8 i ∧ (rd t.log (rd t.exp i).toNat).toNat = i) ∧
    (∀ v : Byte, v ≠ 0#8 → (rd t.log v.toNat).toNat < 255 ∧ rd t.exp (rd t.log v.toNat).toNat = v)

/-- Derived from R151 and R158: the table operations are those of polynomials modulo PRIM. -/
def Obligations.TableArithmeticIsPolynomial : Prop :=
  ∀ (prim : BitVec 9) (t : Tables), buildTables prim = some t →
    ∀ a b : Byte, gfMul t a b = polyMul prim a b ∧ (b ≠ 0#8 → polyMul prim (gfDiv t a b) b = a) ∧
      (a ≠ 0#8 → polyMul prim a (gfInv t a) = 0x01#8) ∧ ∀ e, gfPow t a e = polyPow prim a e

/-- Derived from R159: the laws of the field. -/
def Obligations.FieldLaws : Prop :=
  ∀ (prim : BitVec 9) (t : Tables), buildTables prim = some t →
    ∀ a b c : Byte,
      gfMul t (gfMul t a b) c = gfMul t a (gfMul t b c) ∧ gfMul t a b = gfMul t b a ∧
      gfMul t a (b ^^^ c) = gfMul t a b ^^^ gfMul t a c ∧ gfMul t 0#8 a = 0#8 ∧ gfMul t 0x01#8 a = a ∧
      (a ≠ 0#8 → gfPow t a 255 = 0x01#8) ∧ gfPow t a 0 = 0x01#8 ∧
      (a ≠ 0#8 → ∀ e, gfPow t a e = gfPow t a (e % 255)) ∧ (b ≠ 0#8 → gfDiv t a b = gfMul t a (gfInv t b))

/-- Derived from R162 to R166 and R158: what the field commands answer, with their whole frame. -/
def Obligations.FieldCommandsComplete : Prop :=
  ∀ s : State, s.Inv → s.initDone = true → ∀ a b : Byte,
    exec (.gfAdd a b) s = .next (completedWith .ok { s with result := a ^^^ b }) ∧
    exec (.gfMul a b) s = .next (completedWith .ok { s with result := polyMul s.cfgPrim a b }) ∧
    (b ≠ 0#8 → ∃ q, polyMul s.cfgPrim q b = a ∧
      exec (.gfDiv a b) s = .next (completedWith .ok { s with result := q })) ∧
    (a ≠ 0#8 → ∃ v, polyMul s.cfgPrim a v = 0x01#8 ∧
      exec (.gfInv a) s = .next (completedWith .ok { s with result := v })) ∧
    exec (.gfPow a b) s = .next (completedWith .ok { s with result := polyPow s.cfgPrim a b.toNat })

/-- Derived from R160: NOP completes in every state and changes nothing else. -/
def Obligations.NopCompletes : Prop := ∀ s : State, exec .nop s = .next (completedWith .ok s)

/-- Derived from R161, R157 and R191: INIT's four ends, each with its whole frame. -/
def Obligations.InitEnds : Prop :=
  ∀ s : State,
    (s.initDone = true → exec .init s = .next (completedWith .ok s)) ∧
    (s.initDone = false → SizesOk s → Primitive s.cfgPrim →
      ∃ t, buildTables s.cfgPrim = some t ∧
        exec .init s = .next (completedWith .ok
          { s with tab := t, gen := buildGenerator t s.build.nparMax s.cfgNpar.toNat s.cfgFcr.toNat,
                   initDone := true })) ∧
    (s.initDone = false → ¬ SizesOk s → exec .init s = .next (rejectedWith 0x004#9 s)) ∧
    (s.initDone = false → SizesOk s → ¬ Primitive s.cfgPrim →
      ∃ t, exec .init s = .next t ∧ t = { rejectedWith 0x004#9 s with tab := t.tab, draws := t.draws })

/-- Derived from R190 and R191: GEN holds the coefficients of `∏_j (x - ρ_j)`, monic of degree NPAR, with roots exactly
where the product vanishes. -/
def Obligations.GeneratorIsProductOfRoots : Prop :=
  ∀ (prim : BitVec 9) (t : Tables) (nparMax npar fcr : Nat), buildTables prim = some t → npar ≤ nparMax →
    let g := buildGenerator t nparMax npar fcr
    g.length = nparMax + 1 ∧ rd g npar = 0x01#8 ∧ (∀ i, npar < i → rd g i = 0#8) ∧
    (∀ x : Byte, powerSum t (npar + 1) (rd g) x =
      (List.range npar).foldl (fun acc j => gfMul t acc (x ^^^ t.alpha ((fcr + j) % 255))) 0x01#8) ∧
    ∀ j, j < npar → powerSum t (npar + 1) (rd g) (t.alpha ((fcr + j) % 255)) = 0#8

/-! ### The stages -/

/-- Derived from R193, R194, R95 and R190: SYND completes on every block in range and writes the received polynomial's
values at the generator roots; its whole frame. -/
def Obligations.SyndComputesSyndromes : Prop :=
  ∀ (s : State) (blk : BitVec 16), s.Inv → s.initDone = true → InRange blk s →
    ∃ t, exec (.synd blk) s = .next t ∧
      t = completedWith .ok { s with
        syn := t.syn, synZero := t.synZero, synV := true, locV := false, rootV := false, magV := false } ∧
      t.syn.length = s.build.nparMax ∧
      (∀ j, j < s.cfgNpar.toNat →
        rd t.syn j = syndrome s.tab s.cfgFcr.toNat s.cfgN.toNat s.buf (base blk s) j) ∧
      (∀ j, s.cfgNpar.toNat ≤ j → rd t.syn j = 0#8) ∧
      (t.synZero = true ↔ Codeword s s.buf (base blk s))

/-- Derived from R195: the syndromes of a codeword with an error pattern added are those of the error pattern,
`S_j = ⊕_p e_p ⊗ (α^p)^(FCR + j)`, where e_p is the error at degree p. -/
def Obligations.SyndromesDependOnlyOnError : Prop :=
  ∀ (prim : BitVec 9) (t : Tables) (fcr j : Nat) (c e : List Byte), buildTables prim = some t → c.length = e.length →
    syndromeOf t fcr c j = 0#8 →
    syndromeOf t fcr (List.zipWith (fun x y => x ^^^ y) c e) j =
      xorSum e.length fun p => gfMul t (rd e (e.length - 1 - p)) (gfPow t (t.alpha p) (fcr + j))

/-- Derived from R211, R212 and R213: BM completes, with its whole frame; the locator has constant term 1 and degree at
most L ≤ NPAR, and it generates the syndromes: every one from S[L] on is the linear recurrence of those before it. -/
def Obligations.BmFindsRecurrence : Prop :=
  ∀ s : State, s.Inv → s.initDone = true → s.synV = true →
    ∃ t, exec .bm s = .next t ∧
      t = completedWith (if t.locL.toNat ≤ s.cfgNpar.toNat / 2 then .ok else .uncorrDegree) { s with
        lam := t.lam, locL := t.locL, locV := true, rootV := false, magV := false } ∧
      t.locL.toNat ≤ s.cfgNpar.toNat ∧ t.lam.length = s.build.nparMax + 1 ∧ rd t.lam 0 = 0x01#8 ∧
      (∀ i, t.locL.toNat < i → rd t.lam i = 0#8) ∧
      (∀ r, t.locL.toNat ≤ r → r < s.cfgNpar.toNat →
        xorSum (t.locL.toNat + 1) (fun i => gfMul s.tab (rd t.lam i) (rd s.syn (r - i))) = 0#8) ∧
      ((∀ j, j < s.cfgNpar.toNat → rd s.syn j = 0#8) → t.locL = 0#8)

/-- Derived from R212: the invariants of the Berlekamp-Massey loop, before each iteration and at the end; BM of a sequence
in order raises no error; L can exceed t. -/
def Obligations.BmLoopInvariants : Prop :=
  (∀ (prim : BitVec 9) (t : Tables) (npar : Nat) (syn : List Byte), buildTables prim = some t →
    (∀ r, r ≤ npar →
      let p := bmAfter t npar syn r
      p.disc ≠ 0#8 ∧ p.len ≤ r ∧ 1 ≤ p.shift ∧ rd p.lam 0 = 0x01#8 ∧ (∀ k, p.len < k → rd p.lam k = 0#8) ∧
        ∀ k, rd p.old k ≠ 0#8 → k + p.shift ≤ r + 1 - p.len) ∧
    (bm t npar syn).len ≤ npar ∧
    (2 ≤ npar → ∃ syn', npar / 2 < (bm t npar syn').len)) ∧
  ∀ s t : State, s.initDone = true → s.synV = true → exec .bm s = .next t → t.err = s.err

/-- Derived from R230, R231 and R232: CHIEN completes, with its whole frame; it finds exactly the positions p in 0..254
with Λ(α^(-p)) = 0, in rising order, and each one's byte index; it compares their number with L. -/
def Obligations.ChienFindsAllRoots : Prop :=
  ∀ s : State, s.Inv → s.initDone = true → s.locV = true →
    ∃ (t : State) (ps : List Nat), exec .chien s = .next t ∧
      t = completedWith (if ps.length = s.locL.toNat then .ok else .uncorrRoots) { s with
        root := t.root, posn := t.posn, nroots := t.nroots, rootV := true, magV := false } ∧
      t.root.length = s.build.nparMax ∧ t.posn.length = s.build.nparMax ∧
      ps.Pairwise (· < ·) ∧ t.nroots.toNat = ps.length ∧
      (∀ p, p ∈ ps ↔ p < 255 ∧ powerSum s.tab (s.cfgNpar.toNat + 1) (rd s.lam) (s.tab.alpha (255 - p)) = 0#8) ∧
      (∀ k, k < s.build.nparMax → k < ps.length →
        (rd t.root k).toNat = ps.getD k 0 ∧
        (rd t.posn k).toNat = s.cfgN.toNat - 1 - ps.getD k 0 % s.cfgN.toNat) ∧
      (∀ k, ps.length ≤ k → rd t.root k = 0#8 ∧ rd t.posn k = 0#8)

/-- Derived from R231 and R49: a Chien search finds at most as many roots as the locator's degree allows, so at most
L ≤ NPAR. -/
def Obligations.ChienRootsAtMostDegree : Prop :=
  ∀ s t : State, s.Inv → s.initDone = true → s.locV = true → exec .chien s = .next t →
    t.nroots.toNat ≤ s.locL.toNat ∧ t.nroots.toNat ≤ s.cfgNpar.toNat

/-- Derived from R253 and R233: after a Chien search that found L roots, FORNEY meets no zero denominator and is not
rejected. -/
def Obligations.ForneyRunsAfterFullFactoring : Prop :=
  ∀ s t : State, s.Inv → s.initDone = true → s.locV = true → exec .chien s = .next t → t.res = .ok →
    (∀ k, k < t.nroots.toNat → denominator t k ≠ 0#8) ∧ ∃ u, exec .forney t = .next u ∧ u.res = .ok

/-- Derived from R250 to R252 and R254: FORNEY completes when no denominator is 0, with its whole frame. Ω is S(x)·Λ(x) mod
x^NPAR, and the magnitude Y of root X = α^p satisfies `Y ⊗ Λ'(X^-1) ⊗ X^FCR = X ⊗ Ω(X^-1)`. -/
def Obligations.ForneyComputesMagnitudes : Prop :=
  ∀ s : State, s.Inv → s.initDone = true → s.rootV = true → (∀ k, k < s.nroots.toNat → denominator s k ≠ 0#8) →
    ∃ t, exec .forney s = .next t ∧
      t = completedWith .ok { s with omega := t.omega, mag := t.mag, magV := true } ∧
      t.omega.length = s.build.nparMax ∧ t.mag.length = s.build.nparMax ∧
      (∀ i, i < s.cfgNpar.toNat →
        rd t.omega i = xorSum (i + 1) fun j => gfMul s.tab (rd s.syn j) (rd s.lam (i - j))) ∧
      (∀ i, s.cfgNpar.toNat ≤ i → rd t.omega i = 0#8) ∧
      (∀ k, k < s.nroots.toNat → k < s.build.nparMax →
        let x := s.tab.alpha (rd s.root k).toNat
        let y := s.tab.alpha (255 - (rd s.root k).toNat)
        gfMul s.tab (gfMul s.tab (rd t.mag k) (denominator s k)) (gfPow s.tab x s.cfgFcr.toNat) =
          gfMul s.tab x (powerSum s.tab s.cfgNpar.toNat (rd t.omega) y)) ∧
      (∀ k, s.nroots.toNat ≤ k → rd t.mag k = 0#8)

/-- Derived from R255: CORRECT completes on every block in range, with its whole frame; each byte of BUF has every
magnitude at its position XORed in, and applied twice it restores the bytes. -/
def Obligations.CorrectAppliesMagnitudes : Prop :=
  ∀ (s : State) (blk : BitVec 16), s.Inv → s.initDone = true → s.magV = true → InRange blk s →
    ∃ t u, exec (.correct blk) s = .next t ∧ exec (.correct blk) t = .next u ∧
      t = completedWith .ok { s with buf := t.buf, ncorr := s.nroots } ∧
      (∀ a, Memory.read t.buf a = Memory.read s.buf a ^^^ xorSum s.nroots.toNat fun k =>
        if a = base blk s + (rd s.posn k).toNat then rd s.mag k else 0#8) ∧
      (∀ a, a < base blk s ∨ base blk s + s.cfgN.toNat ≤ a → Memory.read t.buf a = Memory.read s.buf a) ∧
      ∀ a, Memory.read u.buf a = Memory.read s.buf a

/-! ### The block decoder -/

/-- Derived from R280, R281, R64 and R285 items 1, 3 and 4: DECODE.BLK completes on every block in range, with its whole
frame. A failure leaves BUF as it was; a success leaves a codeword; a codeword is left alone. That a correction changes
exactly NCORR bytes (item 3) is a part of `DecodeCorrectsUpToCapacity`, which rests on the same theory. -/
def Obligations.DecodeBlkOutcome : Prop :=
  ∀ (s : State) (blk : BitVec 16), s.Inv → s.initDone = true → InRange blk s →
    ∃ t, exec (.decodeBlk blk) s = .next t ∧ Frame (.decodeBlk blk) s t ∧
      t.running = none ∧ t.err = s.err ∧ t.intStat = s.intStat ||| 1#2 ∧
      t.res ∈ [.ok, .uncorrDegree, .uncorrRoots, .uncorrRecheck] ∧
      (t.res ≠ .ok → t.ncorr = 0#8 ∧ t.buf = s.buf) ∧
      (t.res = .ok → Codeword s t.buf (base blk s)) ∧
      (t.res = .ok → t.synZero = false →
        t.ncorr = t.nroots ∧ t.nroots = t.locL ∧ t.ncorr.toNat ≤ s.cfgNpar.toNat / 2) ∧
      (Codeword s s.buf (base blk s) → t.res = .ok ∧ t.ncorr = 0#8 ∧ t.buf = s.buf) ∧
      (∀ a, a < base blk s ∨ base blk s + s.cfgN.toNat ≤ a → Memory.read t.buf a = Memory.read s.buf a) ∧
      (t.bstat.getD blk.toNat 0#32).toNat = 2147483648 + 256 * t.ncorr.toNat + t.res.code.toNat ∧
      ∀ b, b ≠ blk.toNat → t.bstat.getD b 0#32 = s.bstat.getD b 0#32

/-- Derived from R280: DECODE.BLK leaves in the work arrays what the stage commands, run in order as far as its exit,
leave, and what a stage that did not run left before; on success BUF holds what CORRECT gives. -/
def Obligations.DecodeBlkRunsTheStages : Prop :=
  ∀ (s : State) (blk : BitVec 16), s.Inv → s.initDone = true → InRange blk s →
    ∃ t s1, exec (.decodeBlk blk) s = .next t ∧ exec (.synd blk) s = .next s1 ∧
      t.syn = s1.syn ∧ t.synZero = s1.synZero ∧
      (s1.synZero = true → t.lam = s.lam ∧ t.locL = s.locL ∧ t.root = s.root ∧ t.posn = s.posn ∧
        t.nroots = s.nroots ∧ t.omega = s.omega ∧ t.mag = s.mag) ∧
      (s1.synZero = false → ∃ s2, exec .bm s1 = .next s2 ∧ t.lam = s2.lam ∧ t.locL = s2.locL ∧
        (s2.res = .uncorrDegree → t.res = .uncorrDegree ∧ t.root = s.root ∧ t.posn = s.posn ∧ t.nroots = s.nroots ∧
          t.omega = s.omega ∧ t.mag = s.mag) ∧
        (s2.res = .ok → ∃ s3, exec .chien s2 = .next s3 ∧ t.root = s3.root ∧ t.posn = s3.posn ∧
          t.nroots = s3.nroots ∧
          (s3.res = .uncorrRoots → t.res = .uncorrRoots ∧ t.omega = s.omega ∧ t.mag = s.mag) ∧
          (s3.res = .ok → ∃ s4, exec .forney s3 = .next s4 ∧
            (s4.res = .ok → t.omega = s4.omega ∧ t.mag = s4.mag ∧ (t.res = .ok ∨ t.res = .uncorrRecheck) ∧
              ∃ s5, exec (.correct blk) s4 = .next s5 ∧
                (t.res = .ok → ∀ a, Memory.read t.buf a = Memory.read s5.buf a)))))

/-- Derived from R281 ("The result depends only on the block's bytes and the configuration"): two states that agree on the
build, the configuration and the block's bytes, whatever earlier commands left elsewhere, decode the block alike. -/
def Obligations.DecodeBlkIgnoresEverythingElse : Prop :=
  ∀ (s s' : State) (blk : BitVec 16), s.Inv → s'.Inv → s.initDone = true → s'.initDone = true →
    s.build = s'.build → s.cfgN = s'.cfgN → s.cfgNpar = s'.cfgNpar → s.cfgPrim = s'.cfgPrim → s.cfgFcr = s'.cfgFcr →
    InRange blk s →
    (∀ k, k < s.cfgN.toNat → Memory.read s.buf (base blk s + k) = Memory.read s'.buf (base blk s + k)) →
    ∃ t t', exec (.decodeBlk blk) s = .next t ∧ exec (.decodeBlk blk) s' = .next t' ∧
      t.res = t'.res ∧ t.ncorr = t'.ncorr ∧ t.bstat.getD blk.toNat 0#32 = t'.bstat.getD blk.toNat 0#32 ∧
      ∀ k, k < s.cfgN.toNat → Memory.read t.buf (base blk s + k) = Memory.read t'.buf (base blk s + k)

/-- Derived from R285 items 2 and 3 and R234, with R195, R214 and R256. A block that differs from a codeword `c` in at most
t = NPAR/2 bytes is restored to it, with the number of differing bytes as its correction count. Of any block, however far
from a codeword: a correction that ends OK changes exactly NCORR ≤ t bytes, and a search that leaves some ROOT[k] ≥ N,
a position the shortened code has not, never ends OK. -/
def Obligations.DecodeCorrectsUpToCapacity : Prop :=
  (∀ (s : State) (blk : BitVec 16) (c : Nat → Byte), s.Inv → s.initDone = true → InRange blk s →
    let n := s.cfgN.toNat
    (∀ j, j < s.cfgNpar.toNat →
      powerSum s.tab n (fun i => c (n - 1 - i)) (s.tab.alpha ((s.cfgFcr.toNat + j) % 255)) = 0#8) →
    ((List.range n).filter fun k => Memory.read s.buf (base blk s + k) != c k).length ≤ s.cfgNpar.toNat / 2 →
    ∃ t, exec (.decodeBlk blk) s = .next t ∧ t.res = .ok ∧
      t.ncorr.toNat = ((List.range n).filter fun k => Memory.read s.buf (base blk s + k) != c k).length ∧
      ∀ k, k < n → Memory.read t.buf (base blk s + k) = c k) ∧
  ∀ (s : State) (blk : BitVec 16), s.Inv → s.initDone = true → InRange blk s →
    ∃ t, exec (.decodeBlk blk) s = .next t ∧
      (t.res = .ok → t.synZero = false →
        ((List.range s.cfgN.toNat).filter fun k =>
          Memory.read t.buf (base blk s + k) != Memory.read s.buf (base blk s + k)).length = t.ncorr.toNat ∧
        t.ncorr.toNat ≤ s.cfgNpar.toNat / 2) ∧
      (t.synZero = false → (∃ k, k < t.nroots.toNat ∧ s.cfgN.toNat ≤ (rd t.root k).toNat) → t.res ≠ .ok)

/-- Derived from R282, R283, R284 and R64: DECODE.BUF completes on every legal BUF_LEN, with its whole frame; its counts are
those of its BSTAT entries; a failed block is as received, a successful one a codeword, and bytes from BUF_LEN on are not
touched. -/
def Obligations.DecodeBufOutcome : Prop :=
  ∀ s : State, s.Inv → s.initDone = true → BufLenOk s →
    let n := s.cfgN.toNat
    let nb := s.bufLen.toNat / n
    ∃ t, exec .decodeBuf s = .next t ∧ Frame .decodeBuf s t ∧
      t.running = none ∧ t.err = s.err ∧ t.intStat = s.intStat ||| 1#2 ∧
      t.nblk.toNat = nb ∧
      (∀ b, b < nb → 2147483648 ≤ (t.bstat.getD b 0#32).toNat) ∧ (∀ b, nb ≤ b → t.bstat.getD b 0#32 = 0#32) ∧
      t.nfail.toNat = ((List.range nb).filter fun b => decide ((t.bstat.getD b 0#32).toNat % 8 ≠ 0)).length ∧
      t.totalCorr.toNat = ((List.range nb).map fun b => (t.bstat.getD b 0#32).toNat / 256 % 256).sum ∧
      t.ncorr.toNat = (if nb = 0 then 0 else (t.bstat.getD (nb - 1) 0#32).toNat / 256 % 256) ∧
      t.res = (if t.nfail = 0#16 then .ok else .bufFail) ∧
      (∀ b, b < nb → (t.bstat.getD b 0#32).toNat % 8 = 0 → Codeword s t.buf (b * n)) ∧
      (∀ b, b < nb → (t.bstat.getD b 0#32).toNat % 8 ≠ 0 → (t.bstat.getD b 0#32).toNat / 256 % 256 = 0 ∧
        ∀ k, k < n → Memory.read t.buf (b * n + k) = Memory.read s.buf (b * n + k)) ∧
      ∀ a, s.bufLen.toNat ≤ a → Memory.read t.buf a = Memory.read s.buf a

/-- Derived from R282 and R284: DECODE.BUF leaves in BUF, in the BSTAT entries of its blocks and in the work state what
DECODE.BLK 0, DECODE.BLK 1, … up to the last block leave. -/
def Obligations.DecodeBufIsBlockByBlock : Prop :=
  ∀ s : State, s.Inv → s.initDone = true → BufLenOk s →
    let nb := s.bufLen.toNat / s.cfgN.toNat
    ∃ t u, exec .decodeBuf s = .next t ∧ blockByBlock nb s = .next u ∧
      t.buf = u.buf ∧ (∀ b, b < nb → t.bstat.getD b 0#32 = u.bstat.getD b 0#32) ∧
      t.syn = u.syn ∧ t.synZero = u.synZero ∧ t.lam = u.lam ∧ t.locL = u.locL ∧ t.root = u.root ∧
      t.posn = u.posn ∧ t.nroots = u.nroots ∧ t.omega = u.omega ∧ t.mag = u.mag ∧ validBits t = validBits u ∧
      (nb ≠ 0 → t.ncorr = u.ncorr)

/-! ### The host's port -/

/-- R92: an access that is not 4 bytes wide or not aligned sets ERR.BUS and ERRI, has no other effect, and a read
returns 0; with the core idle and with a command running. In a completing cycle the flags and the 0 stand beside the
command's own effect. -/
def Obligations.UnsupportedAccess : Prop :=
  ∀ (s : State) (addr : Addr) (size : Size) (rest : List HostEvent), (size ≠ .word ∨ addr.toNat % 4 ≠ 0) →
    (∀ v, s.pending = .write addr size v :: rest →
      let u := flaggedWith 0x100#9 { s with pending := rest }
      (s.running = none → step s = .next u) ∧
      (∀ k, s.running = some (k + 1) → step s = .next { u with running := some k }) ∧
      ∀ t, step s = .next t → t.err.getLsbD 8 = true ∧ t.intStat.getLsbD 1 = true) ∧
    (s.pending = .read addr size :: rest →
      let u := flaggedWith 0x100#9 { s with pending := rest, rdata := 0#32 }
      (s.running = none → step s = .next u) ∧
      (∀ k, s.running = some (k + 1) → step s = .next { u with running := some k }) ∧
      ∀ t, step s = .next t → t.err.getLsbD 8 = true ∧ t.intStat.getLsbD 1 = true ∧ t.rdata = 0#32)

/-- Derived from R101, with log 2 for the completing cycle: a host write while a command runs, by its target; the running
command goes on. -/
def Obligations.WritesWhileBusy : Prop :=
  ∀ (s : State) (k : Nat) (v : Word) (rest : List HostEvent), s.running = some k →
    let s' : State := { s with pending := rest }
    (∀ addr : Addr, addr.toNat % 4 = 0 → Writes s addr v rest →
      (BusyTarget s.build addr → step s = engine k (flaggedWith 0x010#9 s')) ∧
      (¬ BusyTarget s.build addr → addr.toNat ∉ [0x00C, 0x010, 0x014] → step s = engine k s')) ∧
    (Writes s 0x000C#16 v rest → step s = engine k { s' with err := s.err &&& ~~~(v.truncate 9) }) ∧
    (Writes s 0x0010#16 v rest → step s = engine k { s' with intStat := s.intStat &&& ~~~(v.truncate 2) }) ∧
    (Writes s 0x0014#16 v rest → step s = engine k { s' with intEn := v.truncate 2 }) ∧
    (∀ (addr : Addr) (size : Size), (size ≠ .word ∨ addr.toNat % 4 ≠ 0) → s.pending = .write addr size v :: rest →
      step s = engine k (flaggedWith 0x100#9 s'))

/-- Derived from R102, R35 and R99: a read while a command runs changes nothing but the read data; the control and
configuration registers, and EXP, LOG and GEN once INIT_DONE = 1, return their defined values. `u` is the state the read
leaves before the core's own action: in the completing cycle (k = 0) the read comes first and STATUS shows BUSY = 1
(log 2). -/
def Obligations.ReadsWhileBusy : Prop :=
  ∀ (s : State) (k : Nat) (addr : Addr) (rest : List HostEvent), s.running = some k → addr.toNat % 4 = 0 →
    Reads s addr rest →
    ∃ u : State, step s = engine k u ∧ u = { s with pending := rest, rdata := u.rdata, draws := u.draws } ∧
      (∀ v, (addr.toNat, v) ∈ definedRegisters s → u.rdata = v ∧ u.draws = s.draws) ∧
      (s.initDone = true → ∀ e, e < 256 →
        (addr.toNat = 0x1000 + 4 * e → u.rdata.toNat = (rd s.gen e).toNat) ∧
        (addr.toNat = 0x2000 + 4 * e → u.rdata.toNat = (rd s.tab.exp e).toNat) ∧
        (addr.toNat = 0x2400 + 4 * e → u.rdata.toNat = (rd s.tab.log e).toNat))

/-- Derived from R31 to R54 and R64: what a read of each location returns with the core idle; it changes nothing but the
read data. -/
def Obligations.ReadsWhileIdle : Prop :=
  ∀ (s : State) (addr : Addr) (rest : List HostEvent), s.Inv → s.running = none → addr.toNat % 4 = 0 →
    Reads s addr rest →
    ∃ t, step s = .next t ∧ t = { s with pending := rest, rdata := t.rdata } ∧
      (∀ v, (addr.toNat, v) ∈ definedRegisters s ++ resultRegisters s → t.rdata = v) ∧
      (∀ w ∈ windows s, ∀ e, e < 256 → addr.toNat = w.1 + 4 * e →
        t.rdata.toNat = if e < w.2.length then (rd w.2 e).toNat else 0) ∧
      (∀ b, b < 256 → addr.toNat = 0x2800 + 4 * b → t.rdata = s.bstat.getD b 0#32)

/-- R45: a write to a CFG_* register with the core idle: stored while INIT_DONE = 0, refused with ERR.LOCKED after; and no
cycle without reset clears INIT_DONE. -/
def Obligations.ConfigurationLock : Prop :=
  (∀ (s : State) (v : Word) (rest : List HostEvent), s.running = none →
    let s' : State := { s with pending := rest }
    (s.initDone = true → ∀ addr ∈ [0x0018#16, 0x001C#16, 0x0020#16, 0x0024#16], Writes s addr v rest →
      step s = .next (flaggedWith 0x080#9 s')) ∧
    (s.initDone = false →
      (Writes s 0x0018#16 v rest → step s = .next { s' with cfgN := v.truncate 8 }) ∧
      (Writes s 0x001C#16 v rest → step s = .next { s' with cfgNpar := v.truncate 8 }) ∧
      (Writes s 0x0020#16 v rest → step s = .next { s' with cfgPrim := v.truncate 9 }) ∧
      (Writes s 0x0024#16 v rest → step s = .next { s' with cfgFcr := v.truncate 8 }))) ∧
  ∀ s t : State, s.initDone = true → NoRst s → step s = .next t →
    t.initDone = true ∧ t.cfgN = s.cfgN ∧ t.cfgNpar = s.cfgNpar ∧ t.cfgPrim = s.cfgPrim ∧ t.cfgFcr = s.cfgFcr

/-- Derived from R37 to R39, R46 and R99: the writable registers that never lock, with the core idle: W1C for ERR and
INT_STAT, plain for INT_EN and BUF_LEN; a write to a read-only register or window is ignored. -/
def Obligations.WritesWhileIdle : Prop :=
  ∀ (s : State) (v : Word) (rest : List HostEvent), s.running = none →
    let s' : State := { s with pending := rest }
    (Writes s 0x000C#16 v rest → step s = .next { s' with err := s.err &&& ~~~(v.truncate 9) }) ∧
    (Writes s 0x0010#16 v rest → step s = .next { s' with intStat := s.intStat &&& ~~~(v.truncate 2) }) ∧
    (Writes s 0x0014#16 v rest → step s = .next { s' with intEn := v.truncate 2 }) ∧
    (Writes s 0x0028#16 v rest → step s = .next { s' with bufLen := v.truncate 16 }) ∧
    (∀ addr : Addr, addr.toNat % 4 = 0 → Writes s addr v rest →
      (addr.toNat ∈ [0x000, 0x008, 0x02C, 0x030, 0x034, 0x038, 0x03C, 0x040, 0x044] ∨
        (0x400 ≤ addr.toNat ∧ addr.toNat < 0x2C00)) → step s = .next s')

/-- R93: BUF words are little-endian, written and read. -/
def Obligations.BufWordsLittleEndian : Prop :=
  ∀ (s : State) (addr : Addr) (w : Nat) (rest : List HostEvent), s.Inv → s.running = none →
    addr.toNat = 0x4000 + 4 * w → 4 * w < s.build.bufBytes →
    (∀ v, Writes s addr v rest →
      ∃ t, step s = .next t ∧ t = { s with pending := rest, buf := t.buf } ∧
        (∀ i, i < 4 → Memory.read t.buf (4 * w + i) = v.extractLsb' (8 * i) 8) ∧
        ∀ a, a < 4 * w ∨ 4 * w + 4 ≤ a → Memory.read t.buf a = Memory.read s.buf a) ∧
    (Reads s addr rest →
      ∃ t, step s = .next t ∧ t = { s with pending := rest, rdata := t.rdata } ∧
        ∀ i, i < 4 → t.rdata.extractLsb' (8 * i) 8 = Memory.read s.buf (4 * w + i))

/-- Derived from R98, I12 and log 11, with log 2 for the completing cycle: reserved offsets read 0 and ignore writes, idle or
busy, with no error. -/
def Obligations.ReservedOffsetsReadZero : Prop :=
  ∀ (s : State) (addr : Addr) (rest : List HostEvent), ReservedOffset s.build addr → addr.toNat % 4 = 0 →
    (Reads s addr rest →
      let u : State := { s with pending := rest, rdata := 0#32 }
      (s.running = none → step s = .next u) ∧ (∀ k, s.running = some k → step s = engine k u)) ∧
    (∀ v, Writes s addr v rest →
      let u : State := { s with pending := rest }
      (s.running = none → step s = .next u) ∧ (∀ k, s.running = some k → step s = engine k u))

/-- Derived from R38 and log 2: a bit of INT_STAT that the host clears in the cycle in which the command's end sets it
ends set. -/
def Obligations.SetWinsOverClear : Prop :=
  ∀ (s t : State) (v : Word) (rest : List HostEvent), s.running = some 0 → Writes s 0x0010#16 v rest →
    step s = .next t → t.intStat.getLsbD 0 = true ∧ (t.res = .rejected → t.intStat.getLsbD 1 = true)

/-- Derived from R40 and R324: irq rises at once when a pending source is enabled, and stays high until the host writes
INT_STAT or INT_EN, or reset. -/
def Obligations.InterruptIsLevel : Prop :=
  (∀ (s : State) (v : Word) (rest : List HostEvent), s.running = none → Writes s 0x0014#16 v rest →
    s.intStat &&& v.truncate 2 ≠ 0#2 → ∃ t, step s = .next t ∧ t.irq = true) ∧
  ∀ s t : State, s.irq = true → NoRst s → step s = .next t →
    (∀ v rest, ¬ Writes s 0x0010#16 v rest ∧ ¬ Writes s 0x0014#16 v rest) → t.irq = true

/-- Derived from R35: the place of every field in the STATUS word; every reserved bit is 0. -/
def Obligations.StatusLayout : Prop :=
  ∀ s : State, s.statusWord.toNat =
    s.running.isSome.toNat + 2 * s.initDone.toNat + 4 * s.synV.toNat + 8 * s.locV.toNat + 16 * s.rootV.toNat +
      32 * s.magV.toNat + 64 * s.synZero.toNat + 256 * s.res.code.toNat
end

