-- ==== Sys2Proof/Laws/Arrays.lean ====
section
/-! SUPPORT. The laws of arrays (10_state.md R54): the length and the entries of a whole array, of one entry's write,
and of a sum. -/

namespace Sys2Proof.Machine

@[simp] theorem length_fill (size : Nat) (f : Nat → Byte) : (fill size f).length = size := by simp [fill]

@[simp] theorem length_fillUsed (size used : Nat) (f : Nat → Byte) : (fillUsed size used f).length = size :=
  length_fill size _

@[simp] theorem length_freeArray (draw size : Nat) : (freeArray draw size).length = size := length_fill size _

/-- Entry i of a whole array, 0 beyond its size. -/
theorem rd_fill (size : Nat) (f : Nat → Byte) (i : Nat) : rd (fill size f) i = if i < size then f i else 0#8 := by
  by_cases h : i < size
  · simp [rd, fill, h]
  · simp [rd, fill, h]

/-- Entry i of a whole array of which the first `used` entries are written. -/
theorem rd_fillUsed (size used : Nat) (f : Nat → Byte) (i : Nat) :
    rd (fillUsed size used f) i = if i < size ∧ i < used then f i else 0#8 := by
  rw [fillUsed, rd_fill]
  by_cases h : i < size <;> by_cases h' : i < used <;> simp [h, h']

theorem rd_set_self {a : List Byte} {i : Nat} (v : Byte) (h : i < a.length) : rd (a.set i v) i = v := by
  simp [rd, h]

theorem rd_set_other {a : List Byte} {i j : Nat} (v : Byte) (h : i ≠ j) : rd (a.set i v) j = rd a j := by
  simp [rd, h]

@[simp] theorem xorSum_zero (f : Nat → Byte) : xorSum 0 f = 0#8 := rfl

/-- A sum of one term more. -/
theorem xorSum_succ (n : Nat) (f : Nat → Byte) : xorSum (n + 1) f = xorSum n f ^^^ f n := by
  simp [xorSum, List.range_succ]

/-- Sums of equal terms are equal. -/
theorem xorSum_congr {n : Nat} {f g : Nat → Byte} (h : ∀ i, i < n → f i = g i) : xorSum n f = xorSum n g := by
  induction n with
  | zero => rfl
  | succ n ih => rw [xorSum_succ, xorSum_succ, ih fun i hi => h i (Nat.lt_succ_of_lt hi), h n (Nat.lt_succ_self n)]

/-- A sum of zeros is zero. -/
theorem xorSum_eq_zero {n : Nat} {f : Nat → Byte} (h : ∀ i, i < n → f i = 0#8) : xorSum n f = 0#8 := by
  induction n with
  | zero => rfl
  | succ n ih => rw [xorSum_succ, ih fun i hi => h i (Nat.lt_succ_of_lt hi), h n (Nat.lt_succ_self n)]; rfl

@[simp] theorem length_genTurn (t : Tables) (fcr : Nat) (g : List Byte) (j : Nat) :
    (genTurn t fcr g j).length = g.length := length_fill _ _

/-- Folding turns that keep a list's length keeps it. -/
theorem length_foldl_of_turn {α : Type} (turn : List Byte → α → List Byte)
    (h : ∀ g x, (turn g x).length = g.length) : ∀ (l : List α) (g : List Byte), (l.foldl turn g).length = g.length
  | [], _ => rfl
  | x :: l, g => by rw [List.foldl_cons, length_foldl_of_turn turn h l, h]

@[simp] theorem length_buildGenerator (t : Tables) (nparMax npar fcr : Nat) :
    (buildGenerator t nparMax npar fcr).length = nparMax + 1 := by
  rw [buildGenerator, length_foldl_of_turn _ (length_genTurn t fcr), length_fill]

@[simp] theorem length_patchTurn (posn mag w : List Byte) (k : Nat) : (patchTurn posn mag w k).length = w.length :=
  List.length_set

@[simp] theorem length_patched (posn mag : List Byte) (n : Nat) (w : List Byte) :
    (patched posn mag n w).length = w.length :=
  length_foldl_of_turn _ (length_patchTurn posn mag) _ w

@[simp] theorem length_blockBytes (s : State) (base : Nat) : (s.blockBytes base).length = s.n :=
  by simp [State.blockBytes, Memory.bytes]

@[simp] theorem gfMul_zero_left (t : Tables) (b : Byte) : gfMul t 0#8 b = 0#8 := by simp [gfMul]

@[simp] theorem gfMul_zero_right (t : Tables) (a : Byte) : gfMul t a 0#8 = 0#8 := by simp [gfMul]

@[simp] theorem gfDiv_zero_left (t : Tables) (b : Byte) : gfDiv t 0#8 b = 0#8 := by simp [gfDiv]

/-- The values before iteration r + 1 are one iteration from those before r (R211). -/
theorem bmAfter_succ (t : Tables) (npar : Nat) (syn : List Byte) (r : Nat) :
    bmAfter t npar syn (r + 1) = bmTurn t npar syn (bmAfter t npar syn r) r := by
  simp [bmAfter, List.range_succ]

end Sys2Proof.Machine
end

