-- ==== Sys2Proof/Laws/Asm.lean ====
section
/-! SUPPORT. The window at BASE (10_state.md R32) and the assembler on a program (30_encoding.md R129). -/

namespace Sys2Proof.Machine

/-- The host address of an offset is in the window, at that offset. -/
@[simp] theorem offsetAt_hostAddr (b : Build) (off : Addr) : offsetAt b (hostAddr b off) = some off := by
  have := off.isLt
  have h : b.base ≤ hostAddr b off ∧ hostAddr b off < b.base + 65536 := by
    unfold hostAddr
    omega
  rw [offsetAt, if_pos h, hostAddr, Nat.add_sub_cancel_left, BitVec.ofNat_toNat, BitVec.setWidth_eq]

/-- Exactly the 2^16 addresses from BASE on are in the window. -/
theorem offsetAt_eq_none {b : Build} {addr : Nat} : offsetAt b addr = none ↔ addr < b.base ∨ b.base + 65536 ≤ addr := by
  unfold offsetAt
  split <;> simp <;> omega

/-- An offset in the window is the distance from BASE. -/
theorem toNat_of_offsetAt {b : Build} {addr : Nat} {off : Addr} (h : offsetAt b addr = some off) :
    hostAddr b off = addr := by
  unfold offsetAt at h
  split at h
  · have hoff := Option.some.inj h
    subst hoff
    rw [hostAddr, BitVec.toNat_ofNat]
    omega
  · exact absurd h nofun

@[simp] theorem State.load_pending (events : List HostEvent) (s : State) :
    (s.load events).pending = s.pending ++ events := rfl

/-- Loading events changes nothing but what the host has planned. -/
theorem State.load_frame (events : List HostEvent) (s : State) :
    s.load events = { s with pending := (s.load events).pending } := rfl

@[simp] theorem assembleProgram_nil : assembleProgram [] = some [] := rfl

/-- A program assembles statement by statement. -/
theorem assembleProgram_cons_eq_some {p : Stmt} {ps : List Stmt} {es : List HostEvent} :
    assembleProgram (p :: ps) = some es ↔
      ∃ e es', assemble p = some e ∧ assembleProgram ps = some es' ∧ es = e ++ es' := by
  cases hp : assemble p <;> cases hps : assembleProgram ps <;> simp [assembleProgram, hp, hps, eq_comm]

end Sys2Proof.Machine
end

