-- ==== Sys2Proof/Laws/Decode.lean ====
section
/-! SUPPORT. A word built from its fields (30_encoding.md R121 to R124): its value, and each field comes back. -/

namespace Sys2Proof

/-- The value of bits put above a byte. -/
theorem toNat_append_byte {n : Nat} (x : BitVec n) (y : Byte) : (x ++ y).toNat = x.toNat * 256 + y.toNat := by
  rw [BitVec.toNat_append, ← Nat.shiftLeft_add_eq_or_of_lt y.isLt, Nat.shiftLeft_eq]

/-- The value of bits put above a block index. -/
theorem toNat_append_half {n : Nat} (x : BitVec n) (y : BitVec 16) :
    (x ++ y).toNat = x.toNat * 65536 + y.toNat := by
  rw [BitVec.toNat_append, ← Nat.shiftLeft_add_eq_or_of_lt y.isLt, Nat.shiftLeft_eq]

theorem toNat_wordN (opc : Byte) : (wordN opc).toNat = opc.toNat := by
  refine (toNat_append_byte 0#24 opc).trans ?_
  simp

theorem toNat_wordG (opc a b : Byte) : (wordG opc a b).toNat = b.toNat * 65536 + a.toNat * 256 + opc.toNat := by
  refine (toNat_append_byte (0#8 ++ b ++ a) opc).trans ?_
  rw [toNat_append_byte, toNat_append_byte]
  simp only [BitVec.toNat_ofNat]
  omega

theorem toNat_wordB (opc : Byte) (blk : BitVec 16) : (wordB opc blk).toNat = blk.toNat * 256 + opc.toNat := by
  refine (toNat_append_byte (0#8 ++ blk) opc).trans ?_
  rw [toNat_append_half]
  simp only [BitVec.toNat_ofNat]
  omega

theorem toNat_fieldOpc (w : Word) : (fieldOpc w).toNat = w.toNat % 256 := by
  simp [fieldOpc, BitVec.extractLsb'_toNat]

theorem toNat_fieldA (w : Word) : (fieldA w).toNat = w.toNat / 256 % 256 := by
  simp [fieldA, BitVec.extractLsb'_toNat, Nat.shiftRight_eq_div_pow]

theorem toNat_fieldB (w : Word) : (fieldB w).toNat = w.toNat / 65536 % 256 := by
  simp [fieldB, BitVec.extractLsb'_toNat, Nat.shiftRight_eq_div_pow]

theorem toNat_fieldBlk (w : Word) : (fieldBlk w).toNat = w.toNat / 256 % 65536 := by
  simp [fieldBlk, BitVec.extractLsb'_toNat, Nat.shiftRight_eq_div_pow]

@[simp] theorem fieldOpc_wordN (opc : Byte) : fieldOpc (wordN opc) = opc := by
  have := opc.isLt
  apply BitVec.eq_of_toNat_eq
  rw [toNat_fieldOpc, toNat_wordN]
  omega

@[simp] theorem fieldOpc_wordG (opc a b : Byte) : fieldOpc (wordG opc a b) = opc := by
  have := opc.isLt
  apply BitVec.eq_of_toNat_eq
  rw [toNat_fieldOpc, toNat_wordG]
  omega

@[simp] theorem fieldOpc_wordB (opc : Byte) (blk : BitVec 16) : fieldOpc (wordB opc blk) = opc := by
  have := opc.isLt
  apply BitVec.eq_of_toNat_eq
  rw [toNat_fieldOpc, toNat_wordB]
  omega

@[simp] theorem fieldA_wordG (opc a b : Byte) : fieldA (wordG opc a b) = a := by
  have := opc.isLt
  have := a.isLt
  apply BitVec.eq_of_toNat_eq
  rw [toNat_fieldA, toNat_wordG]
  omega

@[simp] theorem fieldB_wordG (opc a b : Byte) : fieldB (wordG opc a b) = b := by
  have := opc.isLt
  have := a.isLt
  have := b.isLt
  apply BitVec.eq_of_toNat_eq
  rw [toNat_fieldB, toNat_wordG]
  omega

@[simp] theorem fieldBlk_wordB (opc : Byte) (blk : BitVec 16) : fieldBlk (wordB opc blk) = blk := by
  have := opc.isLt
  have := blk.isLt
  apply BitVec.eq_of_toNat_eq
  rw [toNat_fieldBlk, toNat_wordB]
  omega

/-- The opcode of each command (R125). -/
def Instr.opcode : Instr → Byte
  | .nop => 0x00#8
  | .init => 0x01#8
  | .gfAdd _ _ => 0x10#8
  | .gfMul _ _ => 0x11#8
  | .gfDiv _ _ => 0x12#8
  | .gfInv _ => 0x13#8
  | .gfPow _ _ => 0x14#8
  | .synd _ => 0x20#8
  | .bm => 0x21#8
  | .chien => 0x22#8
  | .forney => 0x23#8
  | .correct _ => 0x24#8
  | .decodeBlk _ => 0x30#8
  | .decodeBuf => 0x31#8

/-- The low byte of every encoded command is its opcode. -/
theorem fieldOpc_encode (i : Instr) : fieldOpc (encode i) = i.opcode := by
  cases i <;> simp [encode, Instr.opcode]

end Sys2Proof
end

