-- ==== Sys2Proof/Laws/Memory.lean ====
section
/-! SUPPORT. BUF's laws: every memory operation keeps the canonical form and the bound, a read after a write to the same
index gives the byte written, and a write leaves every other index alone (10_state.md R65, 00_scope.md R15). -/

namespace Sys2Proof.Machine

theorem Memory.wfFrom_mono {lo lo' : Nat} (h : lo ≤ lo') : ∀ {m : Memory}, wfFrom lo' m = true → wfFrom lo m = true
  | [], _ => rfl
  | (a, v) :: m, hm => by
    simp only [wfFrom, Bool.and_eq_true, decide_eq_true_eq] at hm ⊢
    exact ⟨⟨by omega, hm.1.2⟩, hm.2⟩

/-- An index below every listed one reads as an unlisted byte. -/
theorem Memory.read_of_lt {lo a : Nat} (h : a < lo) : ∀ {m : Memory}, wfFrom lo m = true → read m a = unlisted
  | [], _ => rfl
  | (k, v) :: m, hm => by
    simp only [wfFrom, Bool.and_eq_true, decide_eq_true_eq] at hm
    have hne : a ≠ k := by omega
    simp only [read, hne, if_false]
    exact read_of_lt (lo := k + 1) (by omega) hm.2

theorem Memory.wfFrom_cell {lo a : Nat} {v : Byte} {m : Memory} (ha : lo ≤ a) (hm : wfFrom (a + 1) m = true) :
    wfFrom lo (cell a v m) = true := by
  unfold cell
  split
  · exact wfFrom_mono (by omega) hm
  · rename_i hv
    simp [wfFrom, ha, hm, hv]

theorem Memory.wfFrom_write {a : Nat} (v : Byte) :
    ∀ {lo : Nat} {m : Memory}, lo ≤ a → wfFrom lo m = true → wfFrom lo (write m a v) = true
  | lo, [], ha, _ => by
    simp only [write]
    exact wfFrom_cell ha rfl
  | lo, (k, w) :: m, ha, hm => by
    simp only [wfFrom, Bool.and_eq_true, decide_eq_true_eq] at hm
    simp only [write]
    split
    · rename_i hak
      refine wfFrom_cell ha ?_
      simp only [wfFrom, Bool.and_eq_true, decide_eq_true_eq]
      exact ⟨⟨by omega, hm.1.2⟩, hm.2⟩
    · split
      · rename_i _ hak
        exact wfFrom_cell ha (hak ▸ hm.2)
      · simp only [wfFrom, Bool.and_eq_true, decide_eq_true_eq]
        exact ⟨hm.1, wfFrom_write v (by omega) hm.2⟩

/-- A write keeps the canonical form. -/
theorem Memory.wf_write {m : Memory} (a : Nat) (v : Byte) (h : wf m = true) : wf (write m a v) = true :=
  wfFrom_write v (Nat.zero_le a) h

theorem Memory.read_cell_self {a : Nat} {v : Byte} {m : Memory} (hm : wfFrom (a + 1) m = true) :
    read (cell a v m) a = v := by
  unfold cell
  split
  · rename_i hv
    rw [hv]
    exact read_of_lt (Nat.lt_succ_self a) hm
  · simp [read]

theorem Memory.read_cell_other {a b : Nat} {v : Byte} {m : Memory} (h : b ≠ a) : read (cell a v m) b = read m b := by
  unfold cell
  split
  · rfl
  · simp [read, h]

theorem Memory.read_write_self_from (a : Nat) (v : Byte) :
    ∀ {lo : Nat} {m : Memory}, wfFrom lo m = true → read (write m a v) a = v
  | _, [], _ => by
    simp only [write]
    exact read_cell_self rfl
  | _, (k, w) :: m, hm => by
    simp only [wfFrom, Bool.and_eq_true, decide_eq_true_eq] at hm
    simp only [write]
    split
    · rename_i hak
      refine read_cell_self ?_
      simp only [wfFrom, Bool.and_eq_true, decide_eq_true_eq]
      exact ⟨⟨by omega, hm.1.2⟩, hm.2⟩
    · split
      · rename_i _ hak
        exact read_cell_self (hak ▸ hm.2)
      · rename_i _ hne
        simp only [read, hne, if_false]
        exact read_write_self_from a v hm.2

/-- A read after a write to the same index gives the byte written. -/
theorem Memory.read_write_self {m : Memory} (a : Nat) (v : Byte) (h : wf m = true) : read (write m a v) a = v :=
  read_write_self_from a v h

/-- A write leaves every other index alone. -/
theorem Memory.read_write_other {a b : Nat} (v : Byte) (h : b ≠ a) : ∀ m : Memory, read (write m a v) b = read m b
  | [] => by
    simp only [write]
    exact read_cell_other h
  | (k, w) :: m => by
    simp only [write]
    split
    · exact read_cell_other h
    · split
      · rename_i _ hak
        rw [read_cell_other h]
        simp only [read, hak ▸ h, if_false]
      · simp only [read]
        split
        · rfl
        · exact read_write_other v h m

theorem Memory.below_cell {size a : Nat} {v : Byte} {m : Memory} (ha : a < size) (hm : below size m = true) :
    below size (cell a v m) = true := by
  unfold cell
  split
  · exact hm
  · simp only [below, List.all_cons, Bool.and_eq_true, decide_eq_true_eq]
    exact ⟨ha, hm⟩

/-- A write inside the bound keeps the bound. -/
theorem Memory.below_write {size a : Nat} (v : Byte) (ha : a < size) :
    ∀ {m : Memory}, below size m = true → below size (write m a v) = true
  | [], _ => by
    simp only [write]
    exact below_cell ha rfl
  | (k, w) :: m, hm => by
    have hm' := hm
    simp only [below, List.all_cons, Bool.and_eq_true, decide_eq_true_eq] at hm'
    simp only [write]
    split
    · exact below_cell ha hm
    · split
      · exact below_cell ha hm'.2
      · simp only [below, List.all_cons, Bool.and_eq_true, decide_eq_true_eq]
        exact ⟨hm'.1, below_write v ha hm'.2⟩

/-- Writing consecutive bytes keeps the canonical form. -/
theorem Memory.wf_writeAll : ∀ (vs : List Byte) {m : Memory} (base : Nat), wf m = true → wf (writeAll m base vs) = true
  | [], _, _, h => h
  | v :: vs, _, base, h => wf_writeAll vs (base + 1) (wf_write base v h)

/-- Writing consecutive bytes inside the bound keeps the bound. -/
theorem Memory.below_writeAll {size : Nat} :
    ∀ (vs : List Byte) {m : Memory} (base : Nat), base + vs.length ≤ size → below size m = true →
      below size (writeAll m base vs) = true
  | [], _, _, _, h => h
  | v :: vs, _, base, hb, h => by
    simp only [List.length_cons] at hb
    exact below_writeAll vs (base + 1) (by omega) (below_write v (by omega) h)

/-- Writing consecutive bytes leaves every index outside them alone. -/
theorem Memory.read_writeAll_other {a : Nat} :
    ∀ (vs : List Byte) (m : Memory) (base : Nat), a < base ∨ base + vs.length ≤ a →
      read (writeAll m base vs) a = read m a
  | [], _, _, _ => rfl
  | v :: vs, m, base, h => by
    simp only [List.length_cons] at h
    simp only [writeAll]
    rw [read_writeAll_other vs _ (base + 1) (by omega), read_write_other v (by omega)]

/-- What is read after writing consecutive bytes. -/
theorem Memory.read_writeAll_self :
    ∀ (vs : List Byte) {m : Memory} (base k : Nat), wf m = true → k < vs.length →
      read (writeAll m base vs) (base + k) = vs.getD k 0#8
  | [], _, _, _, _, h => absurd h (Nat.not_lt_zero _)
  | v :: vs, m, base, 0, hm, _ => by
    simp only [writeAll, Nat.add_zero]
    rw [read_writeAll_other vs _ (base + 1) (by omega), read_write_self base v hm]
    rfl
  | v :: vs, m, base, k + 1, hm, h => by
    simp only [List.length_cons] at h
    have ih := read_writeAll_self vs (m := write m base v) (base + 1) k (wf_write base v hm) (by omega)
    simp only [writeAll, show base + (k + 1) = base + 1 + k by omega, ih]
    rfl

theorem Memory.wfFrom_foldr (f : Nat → Byte) :
    ∀ (n lo : Nat), wfFrom lo ((List.range' lo n).foldr (fun a m => cell a (f a) m) []) = true
  | 0, _ => rfl
  | n + 1, lo => by
    simp only [List.range'_succ, List.foldr_cons]
    exact wfFrom_cell (Nat.le_refl lo) (wfFrom_foldr f n (lo + 1))

/-- A memory given by a function is in canonical form. -/
theorem Memory.wf_ofFn (size : Nat) (f : Nat → Byte) : wf (ofFn size f) = true := by
  simp only [wf, ofFn, List.range_eq_range']
  exact wfFrom_foldr f size 0

theorem Memory.below_foldr (f : Nat → Byte) (size : Nat) :
    ∀ l : List Nat, (∀ a ∈ l, a < size) → below size (l.foldr (fun a m => cell a (f a) m) []) = true
  | [], _ => rfl
  | a :: l, h => by
    simp only [List.foldr_cons]
    exact below_cell (h a List.mem_cons_self) (below_foldr f size l fun b hb => h b (List.mem_cons_of_mem a hb))

/-- A memory given by a function lies inside its size. -/
theorem Memory.below_ofFn (size : Nat) (f : Nat → Byte) : below size (ofFn size f) = true :=
  below_foldr f size _ fun _ h => List.mem_range.mp h

/-- The bytes read from memory are as many as asked for. -/
@[simp] theorem Memory.length_bytes (m : Memory) (base n : Nat) : (bytes m base n).length = n := by
  simp [bytes]

end Sys2Proof.Machine
end

