-- ==== Sys2Proof/Laws/Bus.lean ====
section
/-! SUPPORT. The values of the words the host reads (20_memory.md R93, 10_state.md R64), and what a host access leaves
alone. -/

namespace Sys2Proof.Machine

/-- A BUF word as a number, little-endian (R93). -/
theorem toNat_bufWordAt (m : Memory) (k : Nat) :
    (bufWordAt m k).toNat =
      (Memory.read m (k + 3)).toNat * 16777216 + (Memory.read m (k + 2)).toNat * 65536 +
        (Memory.read m (k + 1)).toNat * 256 + (Memory.read m k).toNat := by
  refine (toNat_append_byte (Memory.read m (k + 3) ++ Memory.read m (k + 2) ++ Memory.read m (k + 1)) _).trans ?_
  rw [toNat_append_byte, toNat_append_byte]
  omega

/-- The value of bits put above a result code. -/
theorem toNat_append_res {n : Nat} (x : BitVec n) (y : BitVec 3) : (x ++ y).toNat = x.toNat * 8 + y.toNat := by
  rw [BitVec.toNat_append, ← Nat.shiftLeft_add_eq_or_of_lt y.isLt, Nat.shiftLeft_eq]

/-- A BSTAT entry as a number (R64): WRITTEN, NCORR and RES. -/
theorem toNat_bstatWord (r : Res) (nc : Nat) :
    (bstatWord r nc).toNat = 2147483648 + nc % 256 * 256 + r.code.toNat := by
  refine (toNat_append_res (1#1 ++ 0#15 ++ BitVec.ofNat 8 nc ++ 0#5) r.code).trans ?_
  have h5 : ∀ {n : Nat} (x : BitVec n), (x ++ 0#5).toNat = x.toNat * 32 := fun x => by
    rw [BitVec.toNat_append, ← Nat.shiftLeft_add_eq_or_of_lt (by decide), Nat.shiftLeft_eq]
    rfl
  have h15 : (1#1 ++ 0#15).toNat = 32768 := by decide
  rw [h5, toNat_append_byte, h15, BitVec.toNat_ofNat]
  omega

/-- A BUF word's write keeps the canonical form. -/
theorem wf_bufWriteWord {m : Memory} (k : Nat) (v : Word) (h : Memory.wf m = true) :
    Memory.wf (bufWriteWord m k v) = true :=
  Memory.wf_writeAll _ k h

/-- A BUF word's write inside the bound keeps the bound. -/
theorem below_bufWriteWord {size : Nat} {m : Memory} (k : Nat) (v : Word) (hk : k + 4 ≤ size)
    (h : Memory.below size m = true) : Memory.below size (bufWriteWord m k v) = true :=
  Memory.below_writeAll _ k hk h

/-- A BUF word's write leaves every byte outside the word alone. -/
theorem read_bufWriteWord_other {m : Memory} {a k : Nat} (v : Word) (h : a < k ∨ k + 4 ≤ a) :
    Memory.read (bufWriteWord m k v) a = Memory.read m a :=
  Memory.read_writeAll_other _ m k h

/-- A read changes nothing but `rdata` and the draw counter, and on an unsupported access the BUS error flags
(R92, R99). -/
theorem hostRead_frame (addr : Addr) (size : Size) (s : State) :
    s.hostRead addr size =
      { s with
        rdata := (s.hostRead addr size).rdata
        draws := (s.hostRead addr size).draws
        err := (s.hostRead addr size).err
        intStat := (s.hostRead addr size).intStat } := by
  unfold State.hostRead
  split
  · simp only []
    split <;> rfl
  · rfl

end Sys2Proof.Machine
end

