-- ==== Sys2Proof/Laws/Commands.lean ====
section
/-! SUPPORT. What the shared operations can do, said once: a command's end, the checks of R320, a cycle and a step. -/

namespace Sys2Proof.Machine

/-- A command ends in a next state, rejected or completed. -/
theorem commandEnd_cases {failed : Option Cause} {s ok t : State} (h : commandEnd failed s ok = .next t) :
    (∃ c, failed = some c ∧ t = s.reject c) ∨ (failed = none ∧ t = ok) := by
  cases failed with
  | none =>
    simp only [commandEnd, Host.Outcome.next.injEq] at h
    exact .inr ⟨rfl, h.symm⟩
  | some c =>
    simp only [commandEnd, Host.Outcome.next.injEq] at h
    exact .inl ⟨c, rfl, h.symm⟩

@[simp] theorem commandEnd_none (s ok : State) : commandEnd none s ok = .next ok := rfl

@[simp] theorem commandEnd_some (c : Cause) (s ok : State) : commandEnd (some c) s ok = .next (s.reject c) := rfl

/-- A command's end is always a next state. -/
theorem commandEnd_next (failed : Option Cause) (s ok : State) : ∃ t, commandEnd failed s ok = .next t := by
  cases failed <;> exact ⟨_, rfl⟩

/-- Every command answers a next state: it completes or is rejected (R325, R356). -/
theorem exec_next (i : Instr) (s : State) : ∃ t, exec i s = .next t := by
  cases i with
  | nop => exact ⟨_, rfl⟩
  | init =>
    simp only [exec, execInit]
    split
    · exact ⟨_, rfl⟩
    · split
      · split <;> exact ⟨_, rfl⟩
      · exact ⟨_, rfl⟩
  | _ => exact commandEnd_next _ _ _

@[simp] theorem firstFailed_nil : firstFailed [] = none := rfl

@[simp] theorem firstFailed_cons_none (cs : List (Option Cause)) : firstFailed (none :: cs) = firstFailed cs := rfl

@[simp] theorem firstFailed_cons_some (c : Cause) (cs : List (Option Cause)) : firstFailed (some c :: cs) = some c := rfl

/-- No check fails exactly when each passes. -/
theorem firstFailed_eq_none {cs : List (Option Cause)} : firstFailed cs = none ↔ ∀ c ∈ cs, c = none := by
  induction cs with
  | nil => simp
  | cons c cs ih => cases c <;> simp [ih]

@[simp] theorem checkInit_done {s : State} (h : s.initDone = true) : checkInit s = none := by simp [checkInit, h]

@[simp] theorem checkInit_not {s : State} (h : s.initDone = false) : checkInit s = some .notInit := by
  simp [checkInit, h]

@[simp] theorem checkSeq_true : checkSeq true = none := rfl

@[simp] theorem checkSeq_false : checkSeq false = some .seq := rfl

@[simp] theorem checkDomain_true : checkDomain true = some .domain := rfl

@[simp] theorem checkDomain_false : checkDomain false = none := rfl

/-- A block index in range passes (R96). -/
theorem checkBlock_of_inRange {blk : BitVec 16} {s : State} (h : blk.toNat < s.build.blkMax)
    (h' : (blk.toNat + 1) * s.n ≤ s.build.bufBytes) : checkBlock blk s = none := by
  simp [checkBlock, Nat.not_le.mpr h, Nat.not_lt.mpr h']

/-- INIT's four ends (R161). -/
theorem execInit_cases {s t : State} (h : execInit s = .next t) :
    (s.initDone = true ∧ t = s.complete .ok) ∨
    (s.initDone = false ∧ s.cfgLegal = false ∧ t = s.reject .cfg) ∨
    (s.initDone = false ∧ s.cfgLegal = true ∧ buildTables s.cfgPrim = none ∧ t = s.failedBuild) ∨
    (s.initDone = false ∧ s.cfgLegal = true ∧ ∃ tab, buildTables s.cfgPrim = some tab ∧ t = s.initialised tab) := by
  unfold execInit at h
  split at h
  · rename_i hd
    exact .inl ⟨hd, by simpa using h.symm⟩
  · rename_i hd
    have hd : s.initDone = false := by simpa using hd
    split at h
    · rename_i hc
      split at h
      · rename_i hb
        exact .inr (.inr (.inl ⟨hd, hc, hb, by simpa using h.symm⟩))
      · rename_i tab hb
        exact .inr (.inr (.inr ⟨hd, hc, tab, hb, by simpa using h.symm⟩))
    · rename_i hc
      exact .inr (.inl ⟨hd, by simpa using hc, by simpa using h.symm⟩)

/-- The command engine's three actions in a cycle. -/
theorem engineCycle_cases {was : Option Nat} {s t : State} (h : engineCycle was s = .next t) :
    (was = none ∧ t = s) ∨ (was = some 0 ∧ runCommand s = .next t) ∨
    (∃ k, was = some (k + 1) ∧ t = { s with running := some k }) := by
  match was with
  | none =>
    simp only [engineCycle, Host.Outcome.next.injEq] at h
    exact .inl ⟨rfl, h.symm⟩
  | some 0 => exact .inr (.inl ⟨rfl, h⟩)
  | some (k + 1) =>
    simp only [engineCycle, Host.Outcome.next.injEq] at h
    exact .inr (.inr ⟨k, rfl, h.symm⟩)

/-- A running command at its completion point runs the decoded command, or rejects an illegal word. -/
theorem runCommand_cases {s t : State} (h : runCommand s = .next t) :
    (∃ i, decode s.cmd = .ok i ∧ exec i s = .next t) ∨ (∃ e, decode s.cmd = .error e ∧ t = s.reject .illegal) := by
  unfold runCommand at h
  split at h
  · rename_i i hi
    exact .inl ⟨i, hi, h⟩
  · rename_i e he
    exact .inr ⟨e, he, by simpa using h.symm⟩

/-- The state a cycle's host event leaves, before the command engine acts; a cycle with rst = 1 apart. -/
def State.afterHost (s : State) : State :=
  match s.pending with
  | [] => s
  | .poll :: rest => { s with pending := s.afterPoll rest }.hostEvent .poll
  | e :: rest => { s with pending := rest }.hostEvent e

/-- A step is a reset, or the host's event followed by the command engine's action (R38, R103, R350). -/
theorem step_cases (s : State) :
    (∃ rest, s.pending = .rst :: rest ∧ step s = .next (s.afterRst rest)) ∨
    ((∀ rest, s.pending ≠ .rst :: rest) ∧ step s = engineCycle s.running s.afterHost) := by
  unfold step cycle State.afterHost
  rcases s.pending with _ | ⟨e, rest⟩
  · exact .inr ⟨fun _ => nofun, rfl⟩
  · cases e with
    | rst => exact .inl ⟨rest, rfl, rfl⟩
    | idle => exact .inr ⟨fun _ => nofun, rfl⟩
    | read addr size => exact .inr ⟨fun _ => nofun, rfl⟩
    | write addr size v => exact .inr ⟨fun _ => nofun, rfl⟩
    | poll => exact .inr ⟨fun _ => nofun, rfl⟩

/-- An idle host's cycle is the command engine's alone. -/
theorem step_of_pending_nil {s : State} (h : s.pending = []) : step s = engineCycle s.running s := by
  unfold step cycle
  rw [h]

/-- The word placed by `withFetchWord` is run by the very next step. -/
theorem step_withFetchWord (s : State) (nbits w : Nat) :
    step (s.withFetchWord nbits w) =
      runCommand { s with cmd := tableWord nbits w, running := some 0, pending := s.pending } := rfl

end Sys2Proof.Machine
end

