-- ==== Sys2Proof/Laws/PerInstr.lean ====
section
/-! SUPPORT. Statements for all instructions, one lemma per constructor. Family `OpcodeMap`: in every word whose low byte
is an instruction's opcode and whose operand fields are the instruction's, the opcode map of R125 selects the
instruction. -/

namespace Sys2Proof.Laws.OpcodeMap

/-- The opcode map selects the instruction from its opcode and the fields of its own word (R125). -/
def Statement (i : Instr) : Prop :=
  opcodeMap i.opcode (fieldA (encode i)) (fieldB (encode i)) (fieldBlk (encode i)) = some i

theorem nop : Statement .nop := rfl

theorem init : Statement .init := rfl

theorem gfAdd (a b : Byte) : Statement (.gfAdd a b) := by simp [Statement, Instr.opcode, opcodeMap, encode]

theorem gfMul (a b : Byte) : Statement (.gfMul a b) := by simp [Statement, Instr.opcode, opcodeMap, encode]

theorem gfDiv (a b : Byte) : Statement (.gfDiv a b) := by simp [Statement, Instr.opcode, opcodeMap, encode]

theorem gfInv (a : Byte) : Statement (.gfInv a) := by simp [Statement, Instr.opcode, opcodeMap, encode]

theorem gfPow (a e : Byte) : Statement (.gfPow a e) := by simp [Statement, Instr.opcode, opcodeMap, encode]

theorem synd (blk : BitVec 16) : Statement (.synd blk) := by simp [Statement, Instr.opcode, opcodeMap, encode]

theorem bm : Statement .bm := rfl

theorem chien : Statement .chien := rfl

theorem forney : Statement .forney := rfl

theorem correct (blk : BitVec 16) : Statement (.correct blk) := by simp [Statement, Instr.opcode, opcodeMap, encode]

theorem decodeBlk (blk : BitVec 16) : Statement (.decodeBlk blk) := by
  simp [Statement, Instr.opcode, opcodeMap, encode]

theorem decodeBuf : Statement .decodeBuf := rfl

end Sys2Proof.Laws.OpcodeMap
end

