-- ==== Sys2Proof/Laws/State.lean ====
section
/-! SUPPORT. One lemma per field per update of the state: each holds by rfl and is a simp lemma, so that no later proof
unfolds a record update. -/

namespace Sys2Proof.Machine

/-! ### complete -/

@[simp] theorem State.complete_build (r : Res) (s : State) : (s.complete r).build = s.build := rfl
@[simp] theorem State.complete_pending (r : Res) (s : State) : (s.complete r).pending = s.pending := rfl
@[simp] theorem State.complete_latencies (r : Res) (s : State) : (s.complete r).latencies = s.latencies := rfl
@[simp] theorem State.complete_draws (r : Res) (s : State) : (s.complete r).draws = s.draws := rfl
@[simp] theorem State.complete_rdata (r : Res) (s : State) : (s.complete r).rdata = s.rdata := rfl
@[simp] theorem State.complete_cmd (r : Res) (s : State) : (s.complete r).cmd = s.cmd := rfl
@[simp] theorem State.complete_running (r : Res) (s : State) : (s.complete r).running = none := rfl
@[simp] theorem State.complete_initDone (r : Res) (s : State) : (s.complete r).initDone = s.initDone := rfl
@[simp] theorem State.complete_synV (r : Res) (s : State) : (s.complete r).synV = s.synV := rfl
@[simp] theorem State.complete_locV (r : Res) (s : State) : (s.complete r).locV = s.locV := rfl
@[simp] theorem State.complete_rootV (r : Res) (s : State) : (s.complete r).rootV = s.rootV := rfl
@[simp] theorem State.complete_magV (r : Res) (s : State) : (s.complete r).magV = s.magV := rfl
@[simp] theorem State.complete_synZero (r : Res) (s : State) : (s.complete r).synZero = s.synZero := rfl
@[simp] theorem State.complete_res (r : Res) (s : State) : (s.complete r).res = r := rfl
@[simp] theorem State.complete_err (r : Res) (s : State) : (s.complete r).err = s.err := rfl
@[simp] theorem State.complete_intStat (r : Res) (s : State) : (s.complete r).intStat = s.intStat ||| intDone := rfl
@[simp] theorem State.complete_intEn (r : Res) (s : State) : (s.complete r).intEn = s.intEn := rfl
@[simp] theorem State.complete_cfgN (r : Res) (s : State) : (s.complete r).cfgN = s.cfgN := rfl
@[simp] theorem State.complete_cfgNpar (r : Res) (s : State) : (s.complete r).cfgNpar = s.cfgNpar := rfl
@[simp] theorem State.complete_cfgPrim (r : Res) (s : State) : (s.complete r).cfgPrim = s.cfgPrim := rfl
@[simp] theorem State.complete_cfgFcr (r : Res) (s : State) : (s.complete r).cfgFcr = s.cfgFcr := rfl
@[simp] theorem State.complete_bufLen (r : Res) (s : State) : (s.complete r).bufLen = s.bufLen := rfl
@[simp] theorem State.complete_result (r : Res) (s : State) : (s.complete r).result = s.result := rfl
@[simp] theorem State.complete_locL (r : Res) (s : State) : (s.complete r).locL = s.locL := rfl
@[simp] theorem State.complete_nroots (r : Res) (s : State) : (s.complete r).nroots = s.nroots := rfl
@[simp] theorem State.complete_ncorr (r : Res) (s : State) : (s.complete r).ncorr = s.ncorr := rfl
@[simp] theorem State.complete_totalCorr (r : Res) (s : State) : (s.complete r).totalCorr = s.totalCorr := rfl
@[simp] theorem State.complete_nfail (r : Res) (s : State) : (s.complete r).nfail = s.nfail := rfl
@[simp] theorem State.complete_nblk (r : Res) (s : State) : (s.complete r).nblk = s.nblk := rfl
@[simp] theorem State.complete_syn (r : Res) (s : State) : (s.complete r).syn = s.syn := rfl
@[simp] theorem State.complete_lam (r : Res) (s : State) : (s.complete r).lam = s.lam := rfl
@[simp] theorem State.complete_omega (r : Res) (s : State) : (s.complete r).omega = s.omega := rfl
@[simp] theorem State.complete_gen (r : Res) (s : State) : (s.complete r).gen = s.gen := rfl
@[simp] theorem State.complete_root (r : Res) (s : State) : (s.complete r).root = s.root := rfl
@[simp] theorem State.complete_posn (r : Res) (s : State) : (s.complete r).posn = s.posn := rfl
@[simp] theorem State.complete_mag (r : Res) (s : State) : (s.complete r).mag = s.mag := rfl
@[simp] theorem State.complete_tab (r : Res) (s : State) : (s.complete r).tab = s.tab := rfl
@[simp] theorem State.complete_bstat (r : Res) (s : State) : (s.complete r).bstat = s.bstat := rfl
@[simp] theorem State.complete_buf (r : Res) (s : State) : (s.complete r).buf = s.buf := rfl
@[simp] theorem State.complete_n (r : Res) (s : State) : (s.complete r).n = s.n := rfl
@[simp] theorem State.complete_npar (r : Res) (s : State) : (s.complete r).npar = s.npar := rfl
@[simp] theorem State.complete_fcr (r : Res) (s : State) : (s.complete r).fcr = s.fcr := rfl
@[simp] theorem State.complete_capacity (r : Res) (s : State) : (s.complete r).capacity = s.capacity := rfl
@[simp] theorem State.complete_busy (r : Res) (s : State) : (s.complete r).busy = false := rfl

/-! ### raiseErr -/

@[simp] theorem State.raiseErr_build (c : Cause) (s : State) : (s.raiseErr c).build = s.build := rfl
@[simp] theorem State.raiseErr_pending (c : Cause) (s : State) : (s.raiseErr c).pending = s.pending := rfl
@[simp] theorem State.raiseErr_latencies (c : Cause) (s : State) : (s.raiseErr c).latencies = s.latencies := rfl
@[simp] theorem State.raiseErr_draws (c : Cause) (s : State) : (s.raiseErr c).draws = s.draws := rfl
@[simp] theorem State.raiseErr_rdata (c : Cause) (s : State) : (s.raiseErr c).rdata = s.rdata := rfl
@[simp] theorem State.raiseErr_cmd (c : Cause) (s : State) : (s.raiseErr c).cmd = s.cmd := rfl
@[simp] theorem State.raiseErr_running (c : Cause) (s : State) : (s.raiseErr c).running = s.running := rfl
@[simp] theorem State.raiseErr_initDone (c : Cause) (s : State) : (s.raiseErr c).initDone = s.initDone := rfl
@[simp] theorem State.raiseErr_synV (c : Cause) (s : State) : (s.raiseErr c).synV = s.synV := rfl
@[simp] theorem State.raiseErr_locV (c : Cause) (s : State) : (s.raiseErr c).locV = s.locV := rfl
@[simp] theorem State.raiseErr_rootV (c : Cause) (s : State) : (s.raiseErr c).rootV = s.rootV := rfl
@[simp] theorem State.raiseErr_magV (c : Cause) (s : State) : (s.raiseErr c).magV = s.magV := rfl
@[simp] theorem State.raiseErr_synZero (c : Cause) (s : State) : (s.raiseErr c).synZero = s.synZero := rfl
@[simp] theorem State.raiseErr_res (c : Cause) (s : State) : (s.raiseErr c).res = s.res := rfl
@[simp] theorem State.raiseErr_err (c : Cause) (s : State) : (s.raiseErr c).err = s.err ||| c.mask := rfl
@[simp] theorem State.raiseErr_intStat (c : Cause) (s : State) : (s.raiseErr c).intStat = s.intStat ||| intErri := rfl
@[simp] theorem State.raiseErr_intEn (c : Cause) (s : State) : (s.raiseErr c).intEn = s.intEn := rfl
@[simp] theorem State.raiseErr_cfgN (c : Cause) (s : State) : (s.raiseErr c).cfgN = s.cfgN := rfl
@[simp] theorem State.raiseErr_cfgNpar (c : Cause) (s : State) : (s.raiseErr c).cfgNpar = s.cfgNpar := rfl
@[simp] theorem State.raiseErr_cfgPrim (c : Cause) (s : State) : (s.raiseErr c).cfgPrim = s.cfgPrim := rfl
@[simp] theorem State.raiseErr_cfgFcr (c : Cause) (s : State) : (s.raiseErr c).cfgFcr = s.cfgFcr := rfl
@[simp] theorem State.raiseErr_bufLen (c : Cause) (s : State) : (s.raiseErr c).bufLen = s.bufLen := rfl
@[simp] theorem State.raiseErr_result (c : Cause) (s : State) : (s.raiseErr c).result = s.result := rfl
@[simp] theorem State.raiseErr_locL (c : Cause) (s : State) : (s.raiseErr c).locL = s.locL := rfl
@[simp] theorem State.raiseErr_nroots (c : Cause) (s : State) : (s.raiseErr c).nroots = s.nroots := rfl
@[simp] theorem State.raiseErr_ncorr (c : Cause) (s : State) : (s.raiseErr c).ncorr = s.ncorr := rfl
@[simp] theorem State.raiseErr_totalCorr (c : Cause) (s : State) : (s.raiseErr c).totalCorr = s.totalCorr := rfl
@[simp] theorem State.raiseErr_nfail (c : Cause) (s : State) : (s.raiseErr c).nfail = s.nfail := rfl
@[simp] theorem State.raiseErr_nblk (c : Cause) (s : State) : (s.raiseErr c).nblk = s.nblk := rfl
@[simp] theorem State.raiseErr_syn (c : Cause) (s : State) : (s.raiseErr c).syn = s.syn := rfl
@[simp] theorem State.raiseErr_lam (c : Cause) (s : State) : (s.raiseErr c).lam = s.lam := rfl
@[simp] theorem State.raiseErr_omega (c : Cause) (s : State) : (s.raiseErr c).omega = s.omega := rfl
@[simp] theorem State.raiseErr_gen (c : Cause) (s : State) : (s.raiseErr c).gen = s.gen := rfl
@[simp] theorem State.raiseErr_root (c : Cause) (s : State) : (s.raiseErr c).root = s.root := rfl
@[simp] theorem State.raiseErr_posn (c : Cause) (s : State) : (s.raiseErr c).posn = s.posn := rfl
@[simp] theorem State.raiseErr_mag (c : Cause) (s : State) : (s.raiseErr c).mag = s.mag := rfl
@[simp] theorem State.raiseErr_tab (c : Cause) (s : State) : (s.raiseErr c).tab = s.tab := rfl
@[simp] theorem State.raiseErr_bstat (c : Cause) (s : State) : (s.raiseErr c).bstat = s.bstat := rfl
@[simp] theorem State.raiseErr_buf (c : Cause) (s : State) : (s.raiseErr c).buf = s.buf := rfl
@[simp] theorem State.raiseErr_n (c : Cause) (s : State) : (s.raiseErr c).n = s.n := rfl
@[simp] theorem State.raiseErr_npar (c : Cause) (s : State) : (s.raiseErr c).npar = s.npar := rfl
@[simp] theorem State.raiseErr_fcr (c : Cause) (s : State) : (s.raiseErr c).fcr = s.fcr := rfl
@[simp] theorem State.raiseErr_capacity (c : Cause) (s : State) : (s.raiseErr c).capacity = s.capacity := rfl
@[simp] theorem State.raiseErr_busy (c : Cause) (s : State) : (s.raiseErr c).busy = s.busy := rfl

/-! ### reject -/

@[simp] theorem State.reject_build (c : Cause) (s : State) : (s.reject c).build = s.build := rfl
@[simp] theorem State.reject_pending (c : Cause) (s : State) : (s.reject c).pending = s.pending := rfl
@[simp] theorem State.reject_latencies (c : Cause) (s : State) : (s.reject c).latencies = s.latencies := rfl
@[simp] theorem State.reject_draws (c : Cause) (s : State) : (s.reject c).draws = s.draws := rfl
@[simp] theorem State.reject_rdata (c : Cause) (s : State) : (s.reject c).rdata = s.rdata := rfl
@[simp] theorem State.reject_cmd (c : Cause) (s : State) : (s.reject c).cmd = s.cmd := rfl
@[simp] theorem State.reject_running (c : Cause) (s : State) : (s.reject c).running = none := rfl
@[simp] theorem State.reject_initDone (c : Cause) (s : State) : (s.reject c).initDone = s.initDone := rfl
@[simp] theorem State.reject_synV (c : Cause) (s : State) : (s.reject c).synV = s.synV := rfl
@[simp] theorem State.reject_locV (c : Cause) (s : State) : (s.reject c).locV = s.locV := rfl
@[simp] theorem State.reject_rootV (c : Cause) (s : State) : (s.reject c).rootV = s.rootV := rfl
@[simp] theorem State.reject_magV (c : Cause) (s : State) : (s.reject c).magV = s.magV := rfl
@[simp] theorem State.reject_synZero (c : Cause) (s : State) : (s.reject c).synZero = s.synZero := rfl
@[simp] theorem State.reject_res (c : Cause) (s : State) : (s.reject c).res = .rejected := rfl
@[simp] theorem State.reject_err (c : Cause) (s : State) : (s.reject c).err = s.err ||| c.mask := rfl
@[simp] theorem State.reject_intStat (c : Cause) (s : State) : (s.reject c).intStat = s.intStat ||| intErri ||| intDone := rfl
@[simp] theorem State.reject_intEn (c : Cause) (s : State) : (s.reject c).intEn = s.intEn := rfl
@[simp] theorem State.reject_cfgN (c : Cause) (s : State) : (s.reject c).cfgN = s.cfgN := rfl
@[simp] theorem State.reject_cfgNpar (c : Cause) (s : State) : (s.reject c).cfgNpar = s.cfgNpar := rfl
@[simp] theorem State.reject_cfgPrim (c : Cause) (s : State) : (s.reject c).cfgPrim = s.cfgPrim := rfl
@[simp] theorem State.reject_cfgFcr (c : Cause) (s : State) : (s.reject c).cfgFcr = s.cfgFcr := rfl
@[simp] theorem State.reject_bufLen (c : Cause) (s : State) : (s.reject c).bufLen = s.bufLen := rfl
@[simp] theorem State.reject_result (c : Cause) (s : State) : (s.reject c).result = s.result := rfl
@[simp] theorem State.reject_locL (c : Cause) (s : State) : (s.reject c).locL = s.locL := rfl
@[simp] theorem State.reject_nroots (c : Cause) (s : State) : (s.reject c).nroots = s.nroots := rfl
@[simp] theorem State.reject_ncorr (c : Cause) (s : State) : (s.reject c).ncorr = s.ncorr := rfl
@[simp] theorem State.reject_totalCorr (c : Cause) (s : State) : (s.reject c).totalCorr = s.totalCorr := rfl
@[simp] theorem State.reject_nfail (c : Cause) (s : State) : (s.reject c).nfail = s.nfail := rfl
@[simp] theorem State.reject_nblk (c : Cause) (s : State) : (s.reject c).nblk = s.nblk := rfl
@[simp] theorem State.reject_syn (c : Cause) (s : State) : (s.reject c).syn = s.syn := rfl
@[simp] theorem State.reject_lam (c : Cause) (s : State) : (s.reject c).lam = s.lam := rfl
@[simp] theorem State.reject_omega (c : Cause) (s : State) : (s.reject c).omega = s.omega := rfl
@[simp] theorem State.reject_gen (c : Cause) (s : State) : (s.reject c).gen = s.gen := rfl
@[simp] theorem State.reject_root (c : Cause) (s : State) : (s.reject c).root = s.root := rfl
@[simp] theorem State.reject_posn (c : Cause) (s : State) : (s.reject c).posn = s.posn := rfl
@[simp] theorem State.reject_mag (c : Cause) (s : State) : (s.reject c).mag = s.mag := rfl
@[simp] theorem State.reject_tab (c : Cause) (s : State) : (s.reject c).tab = s.tab := rfl
@[simp] theorem State.reject_bstat (c : Cause) (s : State) : (s.reject c).bstat = s.bstat := rfl
@[simp] theorem State.reject_buf (c : Cause) (s : State) : (s.reject c).buf = s.buf := rfl
@[simp] theorem State.reject_n (c : Cause) (s : State) : (s.reject c).n = s.n := rfl
@[simp] theorem State.reject_npar (c : Cause) (s : State) : (s.reject c).npar = s.npar := rfl
@[simp] theorem State.reject_fcr (c : Cause) (s : State) : (s.reject c).fcr = s.fcr := rfl
@[simp] theorem State.reject_capacity (c : Cause) (s : State) : (s.reject c).capacity = s.capacity := rfl
@[simp] theorem State.reject_busy (c : Cause) (s : State) : (s.reject c).busy = false := rfl

/-! ### validSyn -/

@[simp] theorem State.validSyn_build (s : State) : (s.validSyn).build = s.build := rfl
@[simp] theorem State.validSyn_pending (s : State) : (s.validSyn).pending = s.pending := rfl
@[simp] theorem State.validSyn_latencies (s : State) : (s.validSyn).latencies = s.latencies := rfl
@[simp] theorem State.validSyn_draws (s : State) : (s.validSyn).draws = s.draws := rfl
@[simp] theorem State.validSyn_rdata (s : State) : (s.validSyn).rdata = s.rdata := rfl
@[simp] theorem State.validSyn_cmd (s : State) : (s.validSyn).cmd = s.cmd := rfl
@[simp] theorem State.validSyn_running (s : State) : (s.validSyn).running = s.running := rfl
@[simp] theorem State.validSyn_initDone (s : State) : (s.validSyn).initDone = s.initDone := rfl
@[simp] theorem State.validSyn_synV (s : State) : (s.validSyn).synV = true := rfl
@[simp] theorem State.validSyn_locV (s : State) : (s.validSyn).locV = false := rfl
@[simp] theorem State.validSyn_rootV (s : State) : (s.validSyn).rootV = false := rfl
@[simp] theorem State.validSyn_magV (s : State) : (s.validSyn).magV = false := rfl
@[simp] theorem State.validSyn_synZero (s : State) : (s.validSyn).synZero = s.synZero := rfl
@[simp] theorem State.validSyn_res (s : State) : (s.validSyn).res = s.res := rfl
@[simp] theorem State.validSyn_err (s : State) : (s.validSyn).err = s.err := rfl
@[simp] theorem State.validSyn_intStat (s : State) : (s.validSyn).intStat = s.intStat := rfl
@[simp] theorem State.validSyn_intEn (s : State) : (s.validSyn).intEn = s.intEn := rfl
@[simp] theorem State.validSyn_cfgN (s : State) : (s.validSyn).cfgN = s.cfgN := rfl
@[simp] theorem State.validSyn_cfgNpar (s : State) : (s.validSyn).cfgNpar = s.cfgNpar := rfl
@[simp] theorem State.validSyn_cfgPrim (s : State) : (s.validSyn).cfgPrim = s.cfgPrim := rfl
@[simp] theorem State.validSyn_cfgFcr (s : State) : (s.validSyn).cfgFcr = s.cfgFcr := rfl
@[simp] theorem State.validSyn_bufLen (s : State) : (s.validSyn).bufLen = s.bufLen := rfl
@[simp] theorem State.validSyn_result (s : State) : (s.validSyn).result = s.result := rfl
@[simp] theorem State.validSyn_locL (s : State) : (s.validSyn).locL = s.locL := rfl
@[simp] theorem State.validSyn_nroots (s : State) : (s.validSyn).nroots = s.nroots := rfl
@[simp] theorem State.validSyn_ncorr (s : State) : (s.validSyn).ncorr = s.ncorr := rfl
@[simp] theorem State.validSyn_totalCorr (s : State) : (s.validSyn).totalCorr = s.totalCorr := rfl
@[simp] theorem State.validSyn_nfail (s : State) : (s.validSyn).nfail = s.nfail := rfl
@[simp] theorem State.validSyn_nblk (s : State) : (s.validSyn).nblk = s.nblk := rfl
@[simp] theorem State.validSyn_syn (s : State) : (s.validSyn).syn = s.syn := rfl
@[simp] theorem State.validSyn_lam (s : State) : (s.validSyn).lam = s.lam := rfl
@[simp] theorem State.validSyn_omega (s : State) : (s.validSyn).omega = s.omega := rfl
@[simp] theorem State.validSyn_gen (s : State) : (s.validSyn).gen = s.gen := rfl
@[simp] theorem State.validSyn_root (s : State) : (s.validSyn).root = s.root := rfl
@[simp] theorem State.validSyn_posn (s : State) : (s.validSyn).posn = s.posn := rfl
@[simp] theorem State.validSyn_mag (s : State) : (s.validSyn).mag = s.mag := rfl
@[simp] theorem State.validSyn_tab (s : State) : (s.validSyn).tab = s.tab := rfl
@[simp] theorem State.validSyn_bstat (s : State) : (s.validSyn).bstat = s.bstat := rfl
@[simp] theorem State.validSyn_buf (s : State) : (s.validSyn).buf = s.buf := rfl
@[simp] theorem State.validSyn_n (s : State) : (s.validSyn).n = s.n := rfl
@[simp] theorem State.validSyn_npar (s : State) : (s.validSyn).npar = s.npar := rfl
@[simp] theorem State.validSyn_fcr (s : State) : (s.validSyn).fcr = s.fcr := rfl
@[simp] theorem State.validSyn_capacity (s : State) : (s.validSyn).capacity = s.capacity := rfl
@[simp] theorem State.validSyn_busy (s : State) : (s.validSyn).busy = s.busy := rfl

/-! ### validLoc -/

@[simp] theorem State.validLoc_build (s : State) : (s.validLoc).build = s.build := rfl
@[simp] theorem State.validLoc_pending (s : State) : (s.validLoc).pending = s.pending := rfl
@[simp] theorem State.validLoc_latencies (s : State) : (s.validLoc).latencies = s.latencies := rfl
@[simp] theorem State.validLoc_draws (s : State) : (s.validLoc).draws = s.draws := rfl
@[simp] theorem State.validLoc_rdata (s : State) : (s.validLoc).rdata = s.rdata := rfl
@[simp] theorem State.validLoc_cmd (s : State) : (s.validLoc).cmd = s.cmd := rfl
@[simp] theorem State.validLoc_running (s : State) : (s.validLoc).running = s.running := rfl
@[simp] theorem State.validLoc_initDone (s : State) : (s.validLoc).initDone = s.initDone := rfl
@[simp] theorem State.validLoc_synV (s : State) : (s.validLoc).synV = s.synV := rfl
@[simp] theorem State.validLoc_locV (s : State) : (s.validLoc).locV = true := rfl
@[simp] theorem State.validLoc_rootV (s : State) : (s.validLoc).rootV = false := rfl
@[simp] theorem State.validLoc_magV (s : State) : (s.validLoc).magV = false := rfl
@[simp] theorem State.validLoc_synZero (s : State) : (s.validLoc).synZero = s.synZero := rfl
@[simp] theorem State.validLoc_res (s : State) : (s.validLoc).res = s.res := rfl
@[simp] theorem State.validLoc_err (s : State) : (s.validLoc).err = s.err := rfl
@[simp] theorem State.validLoc_intStat (s : State) : (s.validLoc).intStat = s.intStat := rfl
@[simp] theorem State.validLoc_intEn (s : State) : (s.validLoc).intEn = s.intEn := rfl
@[simp] theorem State.validLoc_cfgN (s : State) : (s.validLoc).cfgN = s.cfgN := rfl
@[simp] theorem State.validLoc_cfgNpar (s : State) : (s.validLoc).cfgNpar = s.cfgNpar := rfl
@[simp] theorem State.validLoc_cfgPrim (s : State) : (s.validLoc).cfgPrim = s.cfgPrim := rfl
@[simp] theorem State.validLoc_cfgFcr (s : State) : (s.validLoc).cfgFcr = s.cfgFcr := rfl
@[simp] theorem State.validLoc_bufLen (s : State) : (s.validLoc).bufLen = s.bufLen := rfl
@[simp] theorem State.validLoc_result (s : State) : (s.validLoc).result = s.result := rfl
@[simp] theorem State.validLoc_locL (s : State) : (s.validLoc).locL = s.locL := rfl
@[simp] theorem State.validLoc_nroots (s : State) : (s.validLoc).nroots = s.nroots := rfl
@[simp] theorem State.validLoc_ncorr (s : State) : (s.validLoc).ncorr = s.ncorr := rfl
@[simp] theorem State.validLoc_totalCorr (s : State) : (s.validLoc).totalCorr = s.totalCorr := rfl
@[simp] theorem State.validLoc_nfail (s : State) : (s.validLoc).nfail = s.nfail := rfl
@[simp] theorem State.validLoc_nblk (s : State) : (s.validLoc).nblk = s.nblk := rfl
@[simp] theorem State.validLoc_syn (s : State) : (s.validLoc).syn = s.syn := rfl
@[simp] theorem State.validLoc_lam (s : State) : (s.validLoc).lam = s.lam := rfl
@[simp] theorem State.validLoc_omega (s : State) : (s.validLoc).omega = s.omega := rfl
@[simp] theorem State.validLoc_gen (s : State) : (s.validLoc).gen = s.gen := rfl
@[simp] theorem State.validLoc_root (s : State) : (s.validLoc).root = s.root := rfl
@[simp] theorem State.validLoc_posn (s : State) : (s.validLoc).posn = s.posn := rfl
@[simp] theorem State.validLoc_mag (s : State) : (s.validLoc).mag = s.mag := rfl
@[simp] theorem State.validLoc_tab (s : State) : (s.validLoc).tab = s.tab := rfl
@[simp] theorem State.validLoc_bstat (s : State) : (s.validLoc).bstat = s.bstat := rfl
@[simp] theorem State.validLoc_buf (s : State) : (s.validLoc).buf = s.buf := rfl
@[simp] theorem State.validLoc_n (s : State) : (s.validLoc).n = s.n := rfl
@[simp] theorem State.validLoc_npar (s : State) : (s.validLoc).npar = s.npar := rfl
@[simp] theorem State.validLoc_fcr (s : State) : (s.validLoc).fcr = s.fcr := rfl
@[simp] theorem State.validLoc_capacity (s : State) : (s.validLoc).capacity = s.capacity := rfl
@[simp] theorem State.validLoc_busy (s : State) : (s.validLoc).busy = s.busy := rfl

/-! ### validRoot -/

@[simp] theorem State.validRoot_build (s : State) : (s.validRoot).build = s.build := rfl
@[simp] theorem State.validRoot_pending (s : State) : (s.validRoot).pending = s.pending := rfl
@[simp] theorem State.validRoot_latencies (s : State) : (s.validRoot).latencies = s.latencies := rfl
@[simp] theorem State.validRoot_draws (s : State) : (s.validRoot).draws = s.draws := rfl
@[simp] theorem State.validRoot_rdata (s : State) : (s.validRoot).rdata = s.rdata := rfl
@[simp] theorem State.validRoot_cmd (s : State) : (s.validRoot).cmd = s.cmd := rfl
@[simp] theorem State.validRoot_running (s : State) : (s.validRoot).running = s.running := rfl
@[simp] theorem State.validRoot_initDone (s : State) : (s.validRoot).initDone = s.initDone := rfl
@[simp] theorem State.validRoot_synV (s : State) : (s.validRoot).synV = s.synV := rfl
@[simp] theorem State.validRoot_locV (s : State) : (s.validRoot).locV = s.locV := rfl
@[simp] theorem State.validRoot_rootV (s : State) : (s.validRoot).rootV = true := rfl
@[simp] theorem State.validRoot_magV (s : State) : (s.validRoot).magV = false := rfl
@[simp] theorem State.validRoot_synZero (s : State) : (s.validRoot).synZero = s.synZero := rfl
@[simp] theorem State.validRoot_res (s : State) : (s.validRoot).res = s.res := rfl
@[simp] theorem State.validRoot_err (s : State) : (s.validRoot).err = s.err := rfl
@[simp] theorem State.validRoot_intStat (s : State) : (s.validRoot).intStat = s.intStat := rfl
@[simp] theorem State.validRoot_intEn (s : State) : (s.validRoot).intEn = s.intEn := rfl
@[simp] theorem State.validRoot_cfgN (s : State) : (s.validRoot).cfgN = s.cfgN := rfl
@[simp] theorem State.validRoot_cfgNpar (s : State) : (s.validRoot).cfgNpar = s.cfgNpar := rfl
@[simp] theorem State.validRoot_cfgPrim (s : State) : (s.validRoot).cfgPrim = s.cfgPrim := rfl
@[simp] theorem State.validRoot_cfgFcr (s : State) : (s.validRoot).cfgFcr = s.cfgFcr := rfl
@[simp] theorem State.validRoot_bufLen (s : State) : (s.validRoot).bufLen = s.bufLen := rfl
@[simp] theorem State.validRoot_result (s : State) : (s.validRoot).result = s.result := rfl
@[simp] theorem State.validRoot_locL (s : State) : (s.validRoot).locL = s.locL := rfl
@[simp] theorem State.validRoot_nroots (s : State) : (s.validRoot).nroots = s.nroots := rfl
@[simp] theorem State.validRoot_ncorr (s : State) : (s.validRoot).ncorr = s.ncorr := rfl
@[simp] theorem State.validRoot_totalCorr (s : State) : (s.validRoot).totalCorr = s.totalCorr := rfl
@[simp] theorem State.validRoot_nfail (s : State) : (s.validRoot).nfail = s.nfail := rfl
@[simp] theorem State.validRoot_nblk (s : State) : (s.validRoot).nblk = s.nblk := rfl
@[simp] theorem State.validRoot_syn (s : State) : (s.validRoot).syn = s.syn := rfl
@[simp] theorem State.validRoot_lam (s : State) : (s.validRoot).lam = s.lam := rfl
@[simp] theorem State.validRoot_omega (s : State) : (s.validRoot).omega = s.omega := rfl
@[simp] theorem State.validRoot_gen (s : State) : (s.validRoot).gen = s.gen := rfl
@[simp] theorem State.validRoot_root (s : State) : (s.validRoot).root = s.root := rfl
@[simp] theorem State.validRoot_posn (s : State) : (s.validRoot).posn = s.posn := rfl
@[simp] theorem State.validRoot_mag (s : State) : (s.validRoot).mag = s.mag := rfl
@[simp] theorem State.validRoot_tab (s : State) : (s.validRoot).tab = s.tab := rfl
@[simp] theorem State.validRoot_bstat (s : State) : (s.validRoot).bstat = s.bstat := rfl
@[simp] theorem State.validRoot_buf (s : State) : (s.validRoot).buf = s.buf := rfl
@[simp] theorem State.validRoot_n (s : State) : (s.validRoot).n = s.n := rfl
@[simp] theorem State.validRoot_npar (s : State) : (s.validRoot).npar = s.npar := rfl
@[simp] theorem State.validRoot_fcr (s : State) : (s.validRoot).fcr = s.fcr := rfl
@[simp] theorem State.validRoot_capacity (s : State) : (s.validRoot).capacity = s.capacity := rfl
@[simp] theorem State.validRoot_busy (s : State) : (s.validRoot).busy = s.busy := rfl

/-! ### validMag -/

@[simp] theorem State.validMag_build (s : State) : (s.validMag).build = s.build := rfl
@[simp] theorem State.validMag_pending (s : State) : (s.validMag).pending = s.pending := rfl
@[simp] theorem State.validMag_latencies (s : State) : (s.validMag).latencies = s.latencies := rfl
@[simp] theorem State.validMag_draws (s : State) : (s.validMag).draws = s.draws := rfl
@[simp] theorem State.validMag_rdata (s : State) : (s.validMag).rdata = s.rdata := rfl
@[simp] theorem State.validMag_cmd (s : State) : (s.validMag).cmd = s.cmd := rfl
@[simp] theorem State.validMag_running (s : State) : (s.validMag).running = s.running := rfl
@[simp] theorem State.validMag_initDone (s : State) : (s.validMag).initDone = s.initDone := rfl
@[simp] theorem State.validMag_synV (s : State) : (s.validMag).synV = s.synV := rfl
@[simp] theorem State.validMag_locV (s : State) : (s.validMag).locV = s.locV := rfl
@[simp] theorem State.validMag_rootV (s : State) : (s.validMag).rootV = s.rootV := rfl
@[simp] theorem State.validMag_magV (s : State) : (s.validMag).magV = true := rfl
@[simp] theorem State.validMag_synZero (s : State) : (s.validMag).synZero = s.synZero := rfl
@[simp] theorem State.validMag_res (s : State) : (s.validMag).res = s.res := rfl
@[simp] theorem State.validMag_err (s : State) : (s.validMag).err = s.err := rfl
@[simp] theorem State.validMag_intStat (s : State) : (s.validMag).intStat = s.intStat := rfl
@[simp] theorem State.validMag_intEn (s : State) : (s.validMag).intEn = s.intEn := rfl
@[simp] theorem State.validMag_cfgN (s : State) : (s.validMag).cfgN = s.cfgN := rfl
@[simp] theorem State.validMag_cfgNpar (s : State) : (s.validMag).cfgNpar = s.cfgNpar := rfl
@[simp] theorem State.validMag_cfgPrim (s : State) : (s.validMag).cfgPrim = s.cfgPrim := rfl
@[simp] theorem State.validMag_cfgFcr (s : State) : (s.validMag).cfgFcr = s.cfgFcr := rfl
@[simp] theorem State.validMag_bufLen (s : State) : (s.validMag).bufLen = s.bufLen := rfl
@[simp] theorem State.validMag_result (s : State) : (s.validMag).result = s.result := rfl
@[simp] theorem State.validMag_locL (s : State) : (s.validMag).locL = s.locL := rfl
@[simp] theorem State.validMag_nroots (s : State) : (s.validMag).nroots = s.nroots := rfl
@[simp] theorem State.validMag_ncorr (s : State) : (s.validMag).ncorr = s.ncorr := rfl
@[simp] theorem State.validMag_totalCorr (s : State) : (s.validMag).totalCorr = s.totalCorr := rfl
@[simp] theorem State.validMag_nfail (s : State) : (s.validMag).nfail = s.nfail := rfl
@[simp] theorem State.validMag_nblk (s : State) : (s.validMag).nblk = s.nblk := rfl
@[simp] theorem State.validMag_syn (s : State) : (s.validMag).syn = s.syn := rfl
@[simp] theorem State.validMag_lam (s : State) : (s.validMag).lam = s.lam := rfl
@[simp] theorem State.validMag_omega (s : State) : (s.validMag).omega = s.omega := rfl
@[simp] theorem State.validMag_gen (s : State) : (s.validMag).gen = s.gen := rfl
@[simp] theorem State.validMag_root (s : State) : (s.validMag).root = s.root := rfl
@[simp] theorem State.validMag_posn (s : State) : (s.validMag).posn = s.posn := rfl
@[simp] theorem State.validMag_mag (s : State) : (s.validMag).mag = s.mag := rfl
@[simp] theorem State.validMag_tab (s : State) : (s.validMag).tab = s.tab := rfl
@[simp] theorem State.validMag_bstat (s : State) : (s.validMag).bstat = s.bstat := rfl
@[simp] theorem State.validMag_buf (s : State) : (s.validMag).buf = s.buf := rfl
@[simp] theorem State.validMag_n (s : State) : (s.validMag).n = s.n := rfl
@[simp] theorem State.validMag_npar (s : State) : (s.validMag).npar = s.npar := rfl
@[simp] theorem State.validMag_fcr (s : State) : (s.validMag).fcr = s.fcr := rfl
@[simp] theorem State.validMag_capacity (s : State) : (s.validMag).capacity = s.capacity := rfl
@[simp] theorem State.validMag_busy (s : State) : (s.validMag).busy = s.busy := rfl

/-! ### syndBody -/

@[simp] theorem State.syndBody_build (base : Nat) (s : State) : (s.syndBody base).build = s.build := rfl
@[simp] theorem State.syndBody_pending (base : Nat) (s : State) : (s.syndBody base).pending = s.pending := rfl
@[simp] theorem State.syndBody_latencies (base : Nat) (s : State) : (s.syndBody base).latencies = s.latencies := rfl
@[simp] theorem State.syndBody_draws (base : Nat) (s : State) : (s.syndBody base).draws = s.draws := rfl
@[simp] theorem State.syndBody_rdata (base : Nat) (s : State) : (s.syndBody base).rdata = s.rdata := rfl
@[simp] theorem State.syndBody_cmd (base : Nat) (s : State) : (s.syndBody base).cmd = s.cmd := rfl
@[simp] theorem State.syndBody_running (base : Nat) (s : State) : (s.syndBody base).running = s.running := rfl
@[simp] theorem State.syndBody_initDone (base : Nat) (s : State) : (s.syndBody base).initDone = s.initDone := rfl
@[simp] theorem State.syndBody_synV (base : Nat) (s : State) : (s.syndBody base).synV = true := rfl
@[simp] theorem State.syndBody_locV (base : Nat) (s : State) : (s.syndBody base).locV = false := rfl
@[simp] theorem State.syndBody_rootV (base : Nat) (s : State) : (s.syndBody base).rootV = false := rfl
@[simp] theorem State.syndBody_magV (base : Nat) (s : State) : (s.syndBody base).magV = false := rfl
@[simp] theorem State.syndBody_synZero (base : Nat) (s : State) : (s.syndBody base).synZero = syndromesZero s.tab s.fcr s.npar (s.blockBytes base) := rfl
@[simp] theorem State.syndBody_res (base : Nat) (s : State) : (s.syndBody base).res = s.res := rfl
@[simp] theorem State.syndBody_err (base : Nat) (s : State) : (s.syndBody base).err = s.err := rfl
@[simp] theorem State.syndBody_intStat (base : Nat) (s : State) : (s.syndBody base).intStat = s.intStat := rfl
@[simp] theorem State.syndBody_intEn (base : Nat) (s : State) : (s.syndBody base).intEn = s.intEn := rfl
@[simp] theorem State.syndBody_cfgN (base : Nat) (s : State) : (s.syndBody base).cfgN = s.cfgN := rfl
@[simp] theorem State.syndBody_cfgNpar (base : Nat) (s : State) : (s.syndBody base).cfgNpar = s.cfgNpar := rfl
@[simp] theorem State.syndBody_cfgPrim (base : Nat) (s : State) : (s.syndBody base).cfgPrim = s.cfgPrim := rfl
@[simp] theorem State.syndBody_cfgFcr (base : Nat) (s : State) : (s.syndBody base).cfgFcr = s.cfgFcr := rfl
@[simp] theorem State.syndBody_bufLen (base : Nat) (s : State) : (s.syndBody base).bufLen = s.bufLen := rfl
@[simp] theorem State.syndBody_result (base : Nat) (s : State) : (s.syndBody base).result = s.result := rfl
@[simp] theorem State.syndBody_locL (base : Nat) (s : State) : (s.syndBody base).locL = s.locL := rfl
@[simp] theorem State.syndBody_nroots (base : Nat) (s : State) : (s.syndBody base).nroots = s.nroots := rfl
@[simp] theorem State.syndBody_ncorr (base : Nat) (s : State) : (s.syndBody base).ncorr = s.ncorr := rfl
@[simp] theorem State.syndBody_totalCorr (base : Nat) (s : State) : (s.syndBody base).totalCorr = s.totalCorr := rfl
@[simp] theorem State.syndBody_nfail (base : Nat) (s : State) : (s.syndBody base).nfail = s.nfail := rfl
@[simp] theorem State.syndBody_nblk (base : Nat) (s : State) : (s.syndBody base).nblk = s.nblk := rfl
@[simp] theorem State.syndBody_syn (base : Nat) (s : State) : (s.syndBody base).syn = fillUsed s.build.nparMax s.npar (syndromeOf s.tab s.fcr (s.blockBytes base)) := rfl
@[simp] theorem State.syndBody_lam (base : Nat) (s : State) : (s.syndBody base).lam = s.lam := rfl
@[simp] theorem State.syndBody_omega (base : Nat) (s : State) : (s.syndBody base).omega = s.omega := rfl
@[simp] theorem State.syndBody_gen (base : Nat) (s : State) : (s.syndBody base).gen = s.gen := rfl
@[simp] theorem State.syndBody_root (base : Nat) (s : State) : (s.syndBody base).root = s.root := rfl
@[simp] theorem State.syndBody_posn (base : Nat) (s : State) : (s.syndBody base).posn = s.posn := rfl
@[simp] theorem State.syndBody_mag (base : Nat) (s : State) : (s.syndBody base).mag = s.mag := rfl
@[simp] theorem State.syndBody_tab (base : Nat) (s : State) : (s.syndBody base).tab = s.tab := rfl
@[simp] theorem State.syndBody_bstat (base : Nat) (s : State) : (s.syndBody base).bstat = s.bstat := rfl
@[simp] theorem State.syndBody_buf (base : Nat) (s : State) : (s.syndBody base).buf = s.buf := rfl
@[simp] theorem State.syndBody_n (base : Nat) (s : State) : (s.syndBody base).n = s.n := rfl
@[simp] theorem State.syndBody_npar (base : Nat) (s : State) : (s.syndBody base).npar = s.npar := rfl
@[simp] theorem State.syndBody_fcr (base : Nat) (s : State) : (s.syndBody base).fcr = s.fcr := rfl
@[simp] theorem State.syndBody_capacity (base : Nat) (s : State) : (s.syndBody base).capacity = s.capacity := rfl
@[simp] theorem State.syndBody_busy (base : Nat) (s : State) : (s.syndBody base).busy = s.busy := rfl

/-! ### bmBody -/

@[simp] theorem State.bmBody_build (s : State) : (s.bmBody).build = s.build := rfl
@[simp] theorem State.bmBody_pending (s : State) : (s.bmBody).pending = s.pending := rfl
@[simp] theorem State.bmBody_latencies (s : State) : (s.bmBody).latencies = s.latencies := rfl
@[simp] theorem State.bmBody_draws (s : State) : (s.bmBody).draws = s.draws := rfl
@[simp] theorem State.bmBody_rdata (s : State) : (s.bmBody).rdata = s.rdata := rfl
@[simp] theorem State.bmBody_cmd (s : State) : (s.bmBody).cmd = s.cmd := rfl
@[simp] theorem State.bmBody_running (s : State) : (s.bmBody).running = s.running := rfl
@[simp] theorem State.bmBody_initDone (s : State) : (s.bmBody).initDone = s.initDone := rfl
@[simp] theorem State.bmBody_synV (s : State) : (s.bmBody).synV = s.synV := rfl
@[simp] theorem State.bmBody_locV (s : State) : (s.bmBody).locV = true := rfl
@[simp] theorem State.bmBody_rootV (s : State) : (s.bmBody).rootV = false := rfl
@[simp] theorem State.bmBody_magV (s : State) : (s.bmBody).magV = false := rfl
@[simp] theorem State.bmBody_synZero (s : State) : (s.bmBody).synZero = s.synZero := rfl
@[simp] theorem State.bmBody_res (s : State) : (s.bmBody).res = s.res := rfl
@[simp] theorem State.bmBody_err (s : State) : (s.bmBody).err = s.err := rfl
@[simp] theorem State.bmBody_intStat (s : State) : (s.bmBody).intStat = s.intStat := rfl
@[simp] theorem State.bmBody_intEn (s : State) : (s.bmBody).intEn = s.intEn := rfl
@[simp] theorem State.bmBody_cfgN (s : State) : (s.bmBody).cfgN = s.cfgN := rfl
@[simp] theorem State.bmBody_cfgNpar (s : State) : (s.bmBody).cfgNpar = s.cfgNpar := rfl
@[simp] theorem State.bmBody_cfgPrim (s : State) : (s.bmBody).cfgPrim = s.cfgPrim := rfl
@[simp] theorem State.bmBody_cfgFcr (s : State) : (s.bmBody).cfgFcr = s.cfgFcr := rfl
@[simp] theorem State.bmBody_bufLen (s : State) : (s.bmBody).bufLen = s.bufLen := rfl
@[simp] theorem State.bmBody_result (s : State) : (s.bmBody).result = s.result := rfl
@[simp] theorem State.bmBody_locL (s : State) : (s.bmBody).locL = BitVec.ofNat 8 (bm s.tab s.npar s.syn).len := rfl
@[simp] theorem State.bmBody_nroots (s : State) : (s.bmBody).nroots = s.nroots := rfl
@[simp] theorem State.bmBody_ncorr (s : State) : (s.bmBody).ncorr = s.ncorr := rfl
@[simp] theorem State.bmBody_totalCorr (s : State) : (s.bmBody).totalCorr = s.totalCorr := rfl
@[simp] theorem State.bmBody_nfail (s : State) : (s.bmBody).nfail = s.nfail := rfl
@[simp] theorem State.bmBody_nblk (s : State) : (s.bmBody).nblk = s.nblk := rfl
@[simp] theorem State.bmBody_syn (s : State) : (s.bmBody).syn = s.syn := rfl
@[simp] theorem State.bmBody_lam (s : State) : (s.bmBody).lam = fillUsed (s.build.nparMax + 1) (s.npar + 1) (rd (bm s.tab s.npar s.syn).lam) := rfl
@[simp] theorem State.bmBody_omega (s : State) : (s.bmBody).omega = s.omega := rfl
@[simp] theorem State.bmBody_gen (s : State) : (s.bmBody).gen = s.gen := rfl
@[simp] theorem State.bmBody_root (s : State) : (s.bmBody).root = s.root := rfl
@[simp] theorem State.bmBody_posn (s : State) : (s.bmBody).posn = s.posn := rfl
@[simp] theorem State.bmBody_mag (s : State) : (s.bmBody).mag = s.mag := rfl
@[simp] theorem State.bmBody_tab (s : State) : (s.bmBody).tab = s.tab := rfl
@[simp] theorem State.bmBody_bstat (s : State) : (s.bmBody).bstat = s.bstat := rfl
@[simp] theorem State.bmBody_buf (s : State) : (s.bmBody).buf = s.buf := rfl
@[simp] theorem State.bmBody_n (s : State) : (s.bmBody).n = s.n := rfl
@[simp] theorem State.bmBody_npar (s : State) : (s.bmBody).npar = s.npar := rfl
@[simp] theorem State.bmBody_fcr (s : State) : (s.bmBody).fcr = s.fcr := rfl
@[simp] theorem State.bmBody_capacity (s : State) : (s.bmBody).capacity = s.capacity := rfl
@[simp] theorem State.bmBody_busy (s : State) : (s.bmBody).busy = s.busy := rfl

/-! ### chienBody -/

@[simp] theorem State.chienBody_build (s : State) : (s.chienBody).build = s.build := rfl
@[simp] theorem State.chienBody_pending (s : State) : (s.chienBody).pending = s.pending := rfl
@[simp] theorem State.chienBody_latencies (s : State) : (s.chienBody).latencies = s.latencies := rfl
@[simp] theorem State.chienBody_draws (s : State) : (s.chienBody).draws = s.draws := rfl
@[simp] theorem State.chienBody_rdata (s : State) : (s.chienBody).rdata = s.rdata := rfl
@[simp] theorem State.chienBody_cmd (s : State) : (s.chienBody).cmd = s.cmd := rfl
@[simp] theorem State.chienBody_running (s : State) : (s.chienBody).running = s.running := rfl
@[simp] theorem State.chienBody_initDone (s : State) : (s.chienBody).initDone = s.initDone := rfl
@[simp] theorem State.chienBody_synV (s : State) : (s.chienBody).synV = s.synV := rfl
@[simp] theorem State.chienBody_locV (s : State) : (s.chienBody).locV = s.locV := rfl
@[simp] theorem State.chienBody_rootV (s : State) : (s.chienBody).rootV = true := rfl
@[simp] theorem State.chienBody_magV (s : State) : (s.chienBody).magV = false := rfl
@[simp] theorem State.chienBody_synZero (s : State) : (s.chienBody).synZero = s.synZero := rfl
@[simp] theorem State.chienBody_res (s : State) : (s.chienBody).res = s.res := rfl
@[simp] theorem State.chienBody_err (s : State) : (s.chienBody).err = s.err := rfl
@[simp] theorem State.chienBody_intStat (s : State) : (s.chienBody).intStat = s.intStat := rfl
@[simp] theorem State.chienBody_intEn (s : State) : (s.chienBody).intEn = s.intEn := rfl
@[simp] theorem State.chienBody_cfgN (s : State) : (s.chienBody).cfgN = s.cfgN := rfl
@[simp] theorem State.chienBody_cfgNpar (s : State) : (s.chienBody).cfgNpar = s.cfgNpar := rfl
@[simp] theorem State.chienBody_cfgPrim (s : State) : (s.chienBody).cfgPrim = s.cfgPrim := rfl
@[simp] theorem State.chienBody_cfgFcr (s : State) : (s.chienBody).cfgFcr = s.cfgFcr := rfl
@[simp] theorem State.chienBody_bufLen (s : State) : (s.chienBody).bufLen = s.bufLen := rfl
@[simp] theorem State.chienBody_result (s : State) : (s.chienBody).result = s.result := rfl
@[simp] theorem State.chienBody_locL (s : State) : (s.chienBody).locL = s.locL := rfl
@[simp] theorem State.chienBody_nroots (s : State) : (s.chienBody).nroots = BitVec.ofNat 8 (chien s.tab (s.lam.take (s.npar + 1))).length := rfl
@[simp] theorem State.chienBody_ncorr (s : State) : (s.chienBody).ncorr = s.ncorr := rfl
@[simp] theorem State.chienBody_totalCorr (s : State) : (s.chienBody).totalCorr = s.totalCorr := rfl
@[simp] theorem State.chienBody_nfail (s : State) : (s.chienBody).nfail = s.nfail := rfl
@[simp] theorem State.chienBody_nblk (s : State) : (s.chienBody).nblk = s.nblk := rfl
@[simp] theorem State.chienBody_syn (s : State) : (s.chienBody).syn = s.syn := rfl
@[simp] theorem State.chienBody_lam (s : State) : (s.chienBody).lam = s.lam := rfl
@[simp] theorem State.chienBody_omega (s : State) : (s.chienBody).omega = s.omega := rfl
@[simp] theorem State.chienBody_gen (s : State) : (s.chienBody).gen = s.gen := rfl
@[simp] theorem State.chienBody_mag (s : State) : (s.chienBody).mag = s.mag := rfl
@[simp] theorem State.chienBody_tab (s : State) : (s.chienBody).tab = s.tab := rfl
@[simp] theorem State.chienBody_bstat (s : State) : (s.chienBody).bstat = s.bstat := rfl
@[simp] theorem State.chienBody_buf (s : State) : (s.chienBody).buf = s.buf := rfl
@[simp] theorem State.chienBody_n (s : State) : (s.chienBody).n = s.n := rfl
@[simp] theorem State.chienBody_npar (s : State) : (s.chienBody).npar = s.npar := rfl
@[simp] theorem State.chienBody_fcr (s : State) : (s.chienBody).fcr = s.fcr := rfl
@[simp] theorem State.chienBody_capacity (s : State) : (s.chienBody).capacity = s.capacity := rfl
@[simp] theorem State.chienBody_busy (s : State) : (s.chienBody).busy = s.busy := rfl

/-! ### forneyBody -/

@[simp] theorem State.forneyBody_build (s : State) : (s.forneyBody).build = s.build := rfl
@[simp] theorem State.forneyBody_pending (s : State) : (s.forneyBody).pending = s.pending := rfl
@[simp] theorem State.forneyBody_latencies (s : State) : (s.forneyBody).latencies = s.latencies := rfl
@[simp] theorem State.forneyBody_draws (s : State) : (s.forneyBody).draws = s.draws := rfl
@[simp] theorem State.forneyBody_rdata (s : State) : (s.forneyBody).rdata = s.rdata := rfl
@[simp] theorem State.forneyBody_cmd (s : State) : (s.forneyBody).cmd = s.cmd := rfl
@[simp] theorem State.forneyBody_running (s : State) : (s.forneyBody).running = s.running := rfl
@[simp] theorem State.forneyBody_initDone (s : State) : (s.forneyBody).initDone = s.initDone := rfl
@[simp] theorem State.forneyBody_synV (s : State) : (s.forneyBody).synV = s.synV := rfl
@[simp] theorem State.forneyBody_locV (s : State) : (s.forneyBody).locV = s.locV := rfl
@[simp] theorem State.forneyBody_rootV (s : State) : (s.forneyBody).rootV = s.rootV := rfl
@[simp] theorem State.forneyBody_magV (s : State) : (s.forneyBody).magV = true := rfl
@[simp] theorem State.forneyBody_synZero (s : State) : (s.forneyBody).synZero = s.synZero := rfl
@[simp] theorem State.forneyBody_res (s : State) : (s.forneyBody).res = s.res := rfl
@[simp] theorem State.forneyBody_err (s : State) : (s.forneyBody).err = s.err := rfl
@[simp] theorem State.forneyBody_intStat (s : State) : (s.forneyBody).intStat = s.intStat := rfl
@[simp] theorem State.forneyBody_intEn (s : State) : (s.forneyBody).intEn = s.intEn := rfl
@[simp] theorem State.forneyBody_cfgN (s : State) : (s.forneyBody).cfgN = s.cfgN := rfl
@[simp] theorem State.forneyBody_cfgNpar (s : State) : (s.forneyBody).cfgNpar = s.cfgNpar := rfl
@[simp] theorem State.forneyBody_cfgPrim (s : State) : (s.forneyBody).cfgPrim = s.cfgPrim := rfl
@[simp] theorem State.forneyBody_cfgFcr (s : State) : (s.forneyBody).cfgFcr = s.cfgFcr := rfl
@[simp] theorem State.forneyBody_bufLen (s : State) : (s.forneyBody).bufLen = s.bufLen := rfl
@[simp] theorem State.forneyBody_result (s : State) : (s.forneyBody).result = s.result := rfl
@[simp] theorem State.forneyBody_locL (s : State) : (s.forneyBody).locL = s.locL := rfl
@[simp] theorem State.forneyBody_nroots (s : State) : (s.forneyBody).nroots = s.nroots := rfl
@[simp] theorem State.forneyBody_ncorr (s : State) : (s.forneyBody).ncorr = s.ncorr := rfl
@[simp] theorem State.forneyBody_totalCorr (s : State) : (s.forneyBody).totalCorr = s.totalCorr := rfl
@[simp] theorem State.forneyBody_nfail (s : State) : (s.forneyBody).nfail = s.nfail := rfl
@[simp] theorem State.forneyBody_nblk (s : State) : (s.forneyBody).nblk = s.nblk := rfl
@[simp] theorem State.forneyBody_syn (s : State) : (s.forneyBody).syn = s.syn := rfl
@[simp] theorem State.forneyBody_lam (s : State) : (s.forneyBody).lam = s.lam := rfl
@[simp] theorem State.forneyBody_omega (s : State) : (s.forneyBody).omega = fillUsed s.build.nparMax s.npar (rd (omegaOf s.tab s.npar s.syn s.lam)) := rfl
@[simp] theorem State.forneyBody_gen (s : State) : (s.forneyBody).gen = s.gen := rfl
@[simp] theorem State.forneyBody_root (s : State) : (s.forneyBody).root = s.root := rfl
@[simp] theorem State.forneyBody_posn (s : State) : (s.forneyBody).posn = s.posn := rfl
@[simp] theorem State.forneyBody_tab (s : State) : (s.forneyBody).tab = s.tab := rfl
@[simp] theorem State.forneyBody_bstat (s : State) : (s.forneyBody).bstat = s.bstat := rfl
@[simp] theorem State.forneyBody_buf (s : State) : (s.forneyBody).buf = s.buf := rfl
@[simp] theorem State.forneyBody_n (s : State) : (s.forneyBody).n = s.n := rfl
@[simp] theorem State.forneyBody_npar (s : State) : (s.forneyBody).npar = s.npar := rfl
@[simp] theorem State.forneyBody_fcr (s : State) : (s.forneyBody).fcr = s.fcr := rfl
@[simp] theorem State.forneyBody_capacity (s : State) : (s.forneyBody).capacity = s.capacity := rfl
@[simp] theorem State.forneyBody_busy (s : State) : (s.forneyBody).busy = s.busy := rfl

/-! ### correctBody -/

@[simp] theorem State.correctBody_build (base : Nat) (s : State) : (s.correctBody base).build = s.build := rfl
@[simp] theorem State.correctBody_pending (base : Nat) (s : State) : (s.correctBody base).pending = s.pending := rfl
@[simp] theorem State.correctBody_latencies (base : Nat) (s : State) : (s.correctBody base).latencies = s.latencies := rfl
@[simp] theorem State.correctBody_draws (base : Nat) (s : State) : (s.correctBody base).draws = s.draws := rfl
@[simp] theorem State.correctBody_rdata (base : Nat) (s : State) : (s.correctBody base).rdata = s.rdata := rfl
@[simp] theorem State.correctBody_cmd (base : Nat) (s : State) : (s.correctBody base).cmd = s.cmd := rfl
@[simp] theorem State.correctBody_running (base : Nat) (s : State) : (s.correctBody base).running = s.running := rfl
@[simp] theorem State.correctBody_initDone (base : Nat) (s : State) : (s.correctBody base).initDone = s.initDone := rfl
@[simp] theorem State.correctBody_synV (base : Nat) (s : State) : (s.correctBody base).synV = s.synV := rfl
@[simp] theorem State.correctBody_locV (base : Nat) (s : State) : (s.correctBody base).locV = s.locV := rfl
@[simp] theorem State.correctBody_rootV (base : Nat) (s : State) : (s.correctBody base).rootV = s.rootV := rfl
@[simp] theorem State.correctBody_magV (base : Nat) (s : State) : (s.correctBody base).magV = s.magV := rfl
@[simp] theorem State.correctBody_synZero (base : Nat) (s : State) : (s.correctBody base).synZero = s.synZero := rfl
@[simp] theorem State.correctBody_res (base : Nat) (s : State) : (s.correctBody base).res = s.res := rfl
@[simp] theorem State.correctBody_err (base : Nat) (s : State) : (s.correctBody base).err = s.err := rfl
@[simp] theorem State.correctBody_intStat (base : Nat) (s : State) : (s.correctBody base).intStat = s.intStat := rfl
@[simp] theorem State.correctBody_intEn (base : Nat) (s : State) : (s.correctBody base).intEn = s.intEn := rfl
@[simp] theorem State.correctBody_cfgN (base : Nat) (s : State) : (s.correctBody base).cfgN = s.cfgN := rfl
@[simp] theorem State.correctBody_cfgNpar (base : Nat) (s : State) : (s.correctBody base).cfgNpar = s.cfgNpar := rfl
@[simp] theorem State.correctBody_cfgPrim (base : Nat) (s : State) : (s.correctBody base).cfgPrim = s.cfgPrim := rfl
@[simp] theorem State.correctBody_cfgFcr (base : Nat) (s : State) : (s.correctBody base).cfgFcr = s.cfgFcr := rfl
@[simp] theorem State.correctBody_bufLen (base : Nat) (s : State) : (s.correctBody base).bufLen = s.bufLen := rfl
@[simp] theorem State.correctBody_result (base : Nat) (s : State) : (s.correctBody base).result = s.result := rfl
@[simp] theorem State.correctBody_locL (base : Nat) (s : State) : (s.correctBody base).locL = s.locL := rfl
@[simp] theorem State.correctBody_nroots (base : Nat) (s : State) : (s.correctBody base).nroots = s.nroots := rfl
@[simp] theorem State.correctBody_ncorr (base : Nat) (s : State) : (s.correctBody base).ncorr = s.nroots := rfl
@[simp] theorem State.correctBody_totalCorr (base : Nat) (s : State) : (s.correctBody base).totalCorr = s.totalCorr := rfl
@[simp] theorem State.correctBody_nfail (base : Nat) (s : State) : (s.correctBody base).nfail = s.nfail := rfl
@[simp] theorem State.correctBody_nblk (base : Nat) (s : State) : (s.correctBody base).nblk = s.nblk := rfl
@[simp] theorem State.correctBody_syn (base : Nat) (s : State) : (s.correctBody base).syn = s.syn := rfl
@[simp] theorem State.correctBody_lam (base : Nat) (s : State) : (s.correctBody base).lam = s.lam := rfl
@[simp] theorem State.correctBody_omega (base : Nat) (s : State) : (s.correctBody base).omega = s.omega := rfl
@[simp] theorem State.correctBody_gen (base : Nat) (s : State) : (s.correctBody base).gen = s.gen := rfl
@[simp] theorem State.correctBody_root (base : Nat) (s : State) : (s.correctBody base).root = s.root := rfl
@[simp] theorem State.correctBody_posn (base : Nat) (s : State) : (s.correctBody base).posn = s.posn := rfl
@[simp] theorem State.correctBody_mag (base : Nat) (s : State) : (s.correctBody base).mag = s.mag := rfl
@[simp] theorem State.correctBody_tab (base : Nat) (s : State) : (s.correctBody base).tab = s.tab := rfl
@[simp] theorem State.correctBody_bstat (base : Nat) (s : State) : (s.correctBody base).bstat = s.bstat := rfl
@[simp] theorem State.correctBody_buf (base : Nat) (s : State) : (s.correctBody base).buf = correctAll s.posn s.mag base s.nroots.toNat s.buf := rfl
@[simp] theorem State.correctBody_n (base : Nat) (s : State) : (s.correctBody base).n = s.n := rfl
@[simp] theorem State.correctBody_npar (base : Nat) (s : State) : (s.correctBody base).npar = s.npar := rfl
@[simp] theorem State.correctBody_fcr (base : Nat) (s : State) : (s.correctBody base).fcr = s.fcr := rfl
@[simp] theorem State.correctBody_capacity (base : Nat) (s : State) : (s.correctBody base).capacity = s.capacity := rfl
@[simp] theorem State.correctBody_busy (base : Nat) (s : State) : (s.correctBody base).busy = s.busy := rfl

/-! ### setBstat -/

@[simp] theorem State.setBstat_build (b : Nat) (v : Word) (s : State) : (s.setBstat b v).build = s.build := rfl
@[simp] theorem State.setBstat_pending (b : Nat) (v : Word) (s : State) : (s.setBstat b v).pending = s.pending := rfl
@[simp] theorem State.setBstat_latencies (b : Nat) (v : Word) (s : State) : (s.setBstat b v).latencies = s.latencies := rfl
@[simp] theorem State.setBstat_draws (b : Nat) (v : Word) (s : State) : (s.setBstat b v).draws = s.draws := rfl
@[simp] theorem State.setBstat_rdata (b : Nat) (v : Word) (s : State) : (s.setBstat b v).rdata = s.rdata := rfl
@[simp] theorem State.setBstat_cmd (b : Nat) (v : Word) (s : State) : (s.setBstat b v).cmd = s.cmd := rfl
@[simp] theorem State.setBstat_running (b : Nat) (v : Word) (s : State) : (s.setBstat b v).running = s.running := rfl
@[simp] theorem State.setBstat_initDone (b : Nat) (v : Word) (s : State) : (s.setBstat b v).initDone = s.initDone := rfl
@[simp] theorem State.setBstat_synV (b : Nat) (v : Word) (s : State) : (s.setBstat b v).synV = s.synV := rfl
@[simp] theorem State.setBstat_locV (b : Nat) (v : Word) (s : State) : (s.setBstat b v).locV = s.locV := rfl
@[simp] theorem State.setBstat_rootV (b : Nat) (v : Word) (s : State) : (s.setBstat b v).rootV = s.rootV := rfl
@[simp] theorem State.setBstat_magV (b : Nat) (v : Word) (s : State) : (s.setBstat b v).magV = s.magV := rfl
@[simp] theorem State.setBstat_synZero (b : Nat) (v : Word) (s : State) : (s.setBstat b v).synZero = s.synZero := rfl
@[simp] theorem State.setBstat_res (b : Nat) (v : Word) (s : State) : (s.setBstat b v).res = s.res := rfl
@[simp] theorem State.setBstat_err (b : Nat) (v : Word) (s : State) : (s.setBstat b v).err = s.err := rfl
@[simp] theorem State.setBstat_intStat (b : Nat) (v : Word) (s : State) : (s.setBstat b v).intStat = s.intStat := rfl
@[simp] theorem State.setBstat_intEn (b : Nat) (v : Word) (s : State) : (s.setBstat b v).intEn = s.intEn := rfl
@[simp] theorem State.setBstat_cfgN (b : Nat) (v : Word) (s : State) : (s.setBstat b v).cfgN = s.cfgN := rfl
@[simp] theorem State.setBstat_cfgNpar (b : Nat) (v : Word) (s : State) : (s.setBstat b v).cfgNpar = s.cfgNpar := rfl
@[simp] theorem State.setBstat_cfgPrim (b : Nat) (v : Word) (s : State) : (s.setBstat b v).cfgPrim = s.cfgPrim := rfl
@[simp] theorem State.setBstat_cfgFcr (b : Nat) (v : Word) (s : State) : (s.setBstat b v).cfgFcr = s.cfgFcr := rfl
@[simp] theorem State.setBstat_bufLen (b : Nat) (v : Word) (s : State) : (s.setBstat b v).bufLen = s.bufLen := rfl
@[simp] theorem State.setBstat_result (b : Nat) (v : Word) (s : State) : (s.setBstat b v).result = s.result := rfl
@[simp] theorem State.setBstat_locL (b : Nat) (v : Word) (s : State) : (s.setBstat b v).locL = s.locL := rfl
@[simp] theorem State.setBstat_nroots (b : Nat) (v : Word) (s : State) : (s.setBstat b v).nroots = s.nroots := rfl
@[simp] theorem State.setBstat_ncorr (b : Nat) (v : Word) (s : State) : (s.setBstat b v).ncorr = s.ncorr := rfl
@[simp] theorem State.setBstat_totalCorr (b : Nat) (v : Word) (s : State) : (s.setBstat b v).totalCorr = s.totalCorr := rfl
@[simp] theorem State.setBstat_nfail (b : Nat) (v : Word) (s : State) : (s.setBstat b v).nfail = s.nfail := rfl
@[simp] theorem State.setBstat_nblk (b : Nat) (v : Word) (s : State) : (s.setBstat b v).nblk = s.nblk := rfl
@[simp] theorem State.setBstat_syn (b : Nat) (v : Word) (s : State) : (s.setBstat b v).syn = s.syn := rfl
@[simp] theorem State.setBstat_lam (b : Nat) (v : Word) (s : State) : (s.setBstat b v).lam = s.lam := rfl
@[simp] theorem State.setBstat_omega (b : Nat) (v : Word) (s : State) : (s.setBstat b v).omega = s.omega := rfl
@[simp] theorem State.setBstat_gen (b : Nat) (v : Word) (s : State) : (s.setBstat b v).gen = s.gen := rfl
@[simp] theorem State.setBstat_root (b : Nat) (v : Word) (s : State) : (s.setBstat b v).root = s.root := rfl
@[simp] theorem State.setBstat_posn (b : Nat) (v : Word) (s : State) : (s.setBstat b v).posn = s.posn := rfl
@[simp] theorem State.setBstat_mag (b : Nat) (v : Word) (s : State) : (s.setBstat b v).mag = s.mag := rfl
@[simp] theorem State.setBstat_tab (b : Nat) (v : Word) (s : State) : (s.setBstat b v).tab = s.tab := rfl
@[simp] theorem State.setBstat_bstat (b : Nat) (v : Word) (s : State) : (s.setBstat b v).bstat = s.bstat.set b v := rfl
@[simp] theorem State.setBstat_buf (b : Nat) (v : Word) (s : State) : (s.setBstat b v).buf = s.buf := rfl
@[simp] theorem State.setBstat_n (b : Nat) (v : Word) (s : State) : (s.setBstat b v).n = s.n := rfl
@[simp] theorem State.setBstat_npar (b : Nat) (v : Word) (s : State) : (s.setBstat b v).npar = s.npar := rfl
@[simp] theorem State.setBstat_fcr (b : Nat) (v : Word) (s : State) : (s.setBstat b v).fcr = s.fcr := rfl
@[simp] theorem State.setBstat_capacity (b : Nat) (v : Word) (s : State) : (s.setBstat b v).capacity = s.capacity := rfl
@[simp] theorem State.setBstat_busy (b : Nat) (v : Word) (s : State) : (s.setBstat b v).busy = s.busy := rfl

end Sys2Proof.Machine
end

