-- ==== Sys2Proof/Tests/Slice0.lean ====
section
/-! SUPPORT. Tests whose expected values come from spec/ (95_test_vectors.md and the examples of the rules, named at each),
and for every obligation with hypotheses a state and operands that meet them, each clause at a boundary of its range. -/

open Sys2Proof.Machine Sys2Proof.Claims

set_option Elab.async false

namespace Sys2Proof.Tests

/-! ### States to test on -/

/-- EXP and LOG for PRIM = 0x11D, written out from 95_test_vectors.md V2 and V3. -/
def specTables : Tables where
  exp := ([0x01, 0x02, 0x04, 0x08, 0x10, 0x20, 0x40, 0x80, 0x1D, 0x3A, 0x74, 0xE8, 0xCD, 0x87, 0x13, 0x26] ++
    [0x4C, 0x98, 0x2D, 0x5A, 0xB4, 0x75, 0xEA, 0xC9, 0x8F, 0x03, 0x06, 0x0C, 0x18, 0x30, 0x60, 0xC0] ++
    [0x9D, 0x27, 0x4E, 0x9C, 0x25, 0x4A, 0x94, 0x35, 0x6A, 0xD4, 0xB5, 0x77, 0xEE, 0xC1, 0x9F, 0x23] ++
    [0x46, 0x8C, 0x05, 0x0A, 0x14, 0x28, 0x50, 0xA0, 0x5D, 0xBA, 0x69, 0xD2, 0xB9, 0x6F, 0xDE, 0xA1] ++
    [0x5F, 0xBE, 0x61, 0xC2, 0x99, 0x2F, 0x5E, 0xBC, 0x65, 0xCA, 0x89, 0x0F, 0x1E, 0x3C, 0x78, 0xF0] ++
    [0xFD, 0xE7, 0xD3, 0xBB, 0x6B, 0xD6, 0xB1, 0x7F, 0xFE, 0xE1, 0xDF, 0xA3, 0x5B, 0xB6, 0x71, 0xE2] ++
    [0xD9, 0xAF, 0x43, 0x86, 0x11, 0x22, 0x44, 0x88, 0x0D, 0x1A, 0x34, 0x68, 0xD0, 0xBD, 0x67, 0xCE] ++
    [0x81, 0x1F, 0x3E, 0x7C, 0xF8, 0xED, 0xC7, 0x93, 0x3B, 0x76, 0xEC, 0xC5, 0x97, 0x33, 0x66, 0xCC] ++
    [0x85, 0x17, 0x2E, 0x5C, 0xB8, 0x6D, 0xDA, 0xA9, 0x4F, 0x9E, 0x21, 0x42, 0x84, 0x15, 0x2A, 0x54] ++
    [0xA8, 0x4D, 0x9A, 0x29, 0x52, 0xA4, 0x55, 0xAA, 0x49, 0x92, 0x39, 0x72, 0xE4, 0xD5, 0xB7, 0x73] ++
    [0xE6, 0xD1, 0xBF, 0x63, 0xC6, 0x91, 0x3F, 0x7E, 0xFC, 0xE5, 0xD7, 0xB3, 0x7B, 0xF6, 0xF1, 0xFF] ++
    [0xE3, 0xDB, 0xAB, 0x4B, 0x96, 0x31, 0x62, 0xC4, 0x95, 0x37, 0x6E, 0xDC, 0xA5, 0x57, 0xAE, 0x41] ++
    [0x82, 0x19, 0x32, 0x64, 0xC8, 0x8D, 0x07, 0x0E, 0x1C, 0x38, 0x70, 0xE0, 0xDD, 0xA7, 0x53, 0xA6] ++
    [0x51, 0xA2, 0x59, 0xB2, 0x79, 0xF2, 0xF9, 0xEF, 0xC3, 0x9B, 0x2B, 0x56, 0xAC, 0x45, 0x8A, 0x09] ++
    [0x12, 0x24, 0x48, 0x90, 0x3D, 0x7A, 0xF4, 0xF5, 0xF7, 0xF3, 0xFB, 0xEB, 0xCB, 0x8B, 0x0B, 0x16] ++
    [0x2C, 0x58, 0xB0, 0x7D, 0xFA, 0xE9, 0xCF, 0x83, 0x1B, 0x36, 0x6C, 0xD8, 0xAD, 0x47, 0x8E, 0x01]).map (BitVec.ofNat 8)
  log := ([0xFF, 0x00, 0x01, 0x19, 0x02, 0x32, 0x1A, 0xC6, 0x03, 0xDF, 0x33, 0xEE, 0x1B, 0x68, 0xC7, 0x4B] ++
    [0x04, 0x64, 0xE0, 0x0E, 0x34, 0x8D, 0xEF, 0x81, 0x1C, 0xC1, 0x69, 0xF8, 0xC8, 0x08, 0x4C, 0x71] ++
    [0x05, 0x8A, 0x65, 0x2F, 0xE1, 0x24, 0x0F, 0x21, 0x35, 0x93, 0x8E, 0xDA, 0xF0, 0x12, 0x82, 0x45] ++
    [0x1D, 0xB5, 0xC2, 0x7D, 0x6A, 0x27, 0xF9, 0xB9, 0xC9, 0x9A, 0x09, 0x78, 0x4D, 0xE4, 0x72, 0xA6] ++
    [0x06, 0xBF, 0x8B, 0x62, 0x66, 0xDD, 0x30, 0xFD, 0xE2, 0x98, 0x25, 0xB3, 0x10, 0x91, 0x22, 0x88] ++
    [0x36, 0xD0, 0x94, 0xCE, 0x8F, 0x96, 0xDB, 0xBD, 0xF1, 0xD2, 0x13, 0x5C, 0x83, 0x38, 0x46, 0x40] ++
    [0x1E, 0x42, 0xB6, 0xA3, 0xC3, 0x48, 0x7E, 0x6E, 0x6B, 0x3A, 0x28, 0x54, 0xFA, 0x85, 0xBA, 0x3D] ++
    [0xCA, 0x5E, 0x9B, 0x9F, 0x0A, 0x15, 0x79, 0x2B, 0x4E, 0xD4, 0xE5, 0xAC, 0x73, 0xF3, 0xA7, 0x57] ++
    [0x07, 0x70, 0xC0, 0xF7, 0x8C, 0x80, 0x63, 0x0D, 0x67, 0x4A, 0xDE, 0xED, 0x31, 0xC5, 0xFE, 0x18] ++
    [0xE3, 0xA5, 0x99, 0x77, 0x26, 0xB8, 0xB4, 0x7C, 0x11, 0x44, 0x92, 0xD9, 0x23, 0x20, 0x89, 0x2E] ++
    [0x37, 0x3F, 0xD1, 0x5B, 0x95, 0xBC, 0xCF, 0xCD, 0x90, 0x87, 0x97, 0xB2, 0xDC, 0xFC, 0xBE, 0x61] ++
    [0xF2, 0x56, 0xD3, 0xAB, 0x14, 0x2A, 0x5D, 0x9E, 0x84, 0x3C, 0x39, 0x53, 0x47, 0x6D, 0x41, 0xA2] ++
    [0x1F, 0x2D, 0x43, 0xD8, 0xB7, 0x7B, 0xA4, 0x76, 0xC4, 0x17, 0x49, 0xEC, 0x7F, 0x0C, 0x6F, 0xF6] ++
    [0x6C, 0xA1, 0x3B, 0x52, 0x29, 0x9D, 0x55, 0xAA, 0xFB, 0x60, 0x86, 0xB1, 0xBB, 0xCC, 0x3E, 0x5A] ++
    [0xCB, 0x59, 0x5F, 0xB0, 0x9C, 0xA9, 0xA0, 0x51, 0x0B, 0xF5, 0x16, 0xEB, 0x7A, 0x75, 0x2C, 0xD7] ++
    [0x4F, 0xAE, 0xD5, 0xE9, 0xE6, 0xE7, 0xAD, 0xE8, 0x74, 0xD6, 0xF4, 0xEA, 0xA8, 0x50, 0x58, 0xAF]).map (BitVec.ofNat 8)

/-- A small legal build, its window at host address 0x80000000. -/
def smallBuild : Build := { bufBytes := 256, nparMax := 4, blkMax := 32, base := 0x80000000 }

/-- The state right after reset at the small build. -/
def fresh : State :=
  { State.reset with
    build := smallBuild
    syn := List.replicate 4 0
    lam := List.replicate 5 0
    omega := List.replicate 4 0
    gen := List.replicate 5 0
    root := List.replicate 4 0
    posn := List.replicate 4 0
    mag := List.replicate 4 0
    bstat := List.replicate 32 0 }

/-- `fresh` with the configuration N = 8, NPAR = 4, PRIM = 0x11D, FCR = 1. -/
def configured : State := { fresh with cfgN := 8, cfgNpar := 4, cfgPrim := 0x11D, cfgFcr := 1 }

/-- `configured` after INIT, with GEN from 95_test_vectors.md V5 (NPAR = 4, FCR = 1) and one byte 01 at index 7 of block 0. -/
def ready : State :=
  { configured with
    initDone := true, tab := specTables, gen := [0x74, 0xE7, 0xD8, 0x1E, 0x01], buf := [(7, 0x01)] }

/-- `ready` with the syndromes of an error 01 at degree 0 (95_test_vectors.md V7.6). -/
def withSyn : State := { ready with syn := [1, 1, 1, 1], synV := true }

/-- `withSyn` with their locator (V7.6). -/
def withLoc : State := { withSyn with lam := [1, 1, 0, 0, 0], locL := 1, locV := true }

/-- `withLoc` with its root: position 0, byte N - 1 (V7.6). -/
def withRoot : State := { withLoc with root := [0, 0, 0, 0], posn := [7, 0, 0, 0], nroots := 1, rootV := true }

/-- `withRoot` with its magnitude (V7.6). -/
def withMag : State := { withRoot with omega := [1, 0, 0, 0], mag := [1, 0, 0, 0], magV := true }

/-- A double root, whose denominator is 0 (V7.7). -/
def doubleRoot : State :=
  { ready with
    syn := [0, 1, 0, 1], synV := true, lam := [1, 0, 1, 0, 0], locL := 2, locV := true,
    root := [0, 0, 0, 0], posn := [7, 0, 0, 0], nroots := 1, rootV := true }

/-- `s` with a command word accepted and `k` cycles to go. -/
def running (w : Word) (k : Nat) (s : State) : State := { s with cmd := w, running := some k }

/-- `s` with one coming host event. -/
def host (e : HostEvent) (s : State) : State := { s with pending := [e] }

/-- `s` with an aligned 4-byte write coming. -/
def wr (addr : Addr) (v : Word) (s : State) : State := host (.write addr .word v) s

/-- `s` with an aligned 4-byte read coming. -/
def rdAt (addr : Addr) (s : State) : State := host (.read addr .word) s

/-- The state a command leaves. -/
def after (i : Instr) (s : State) : State :=
  match exec i s with
  | .next t => t
  | .fault _ => s
  | .refused _ => s

theorem exec_after (i : Instr) (s : State) : exec i s = .next (after i s) := by
  obtain ⟨t, h⟩ := exec_next i s
  rw [after, h]

/-- The state one step leaves. -/
def stepped (s : State) : State :=
  match step s with
  | .next t => t
  | .fault _ => s
  | .refused _ => s

/-- An array that is 0 from `lo` to its end is 0 from `lo` on. -/
theorem rd_eq_zero_of_bounded {a : List Byte} {lo size : Nat} (hs : a.length ≤ size)
    (h : ∀ i, i < size → lo < i → rd a i = 0#8) (i : Nat) (hi : lo < i) : rd a i = 0#8 := by
  by_cases hb : i < size
  · exact h i hb hi
  · exact List.getD_eq_default _ _ (Nat.le_trans hs (Nat.not_lt.mp hb))

/-- An array with entries below `n` up to its end has them below `n` everywhere. -/
theorem rd_lt_of_bounded {a : List Byte} {n size : Nat} (hs : a.length ≤ size) (hn : 0 < n)
    (h : ∀ k, k < size → (rd a k).toNat < n) (k : Nat) : (rd a k).toNat < n := by
  by_cases hb : k < size
  · exact h k hb
  · rw [rd, List.getD_eq_default _ _ (Nat.le_trans hs (Nat.not_lt.mp hb))]
    exact hn

/-- What `State.Inv` says of the small build, with every bound written out, so that it can be decided. -/
abbrev InvCheck (s : State) : Prop :=
  s.build = smallBuild ∧ (Memory.wf s.buf = true ∧ Memory.below 256 s.buf = true) ∧
  (s.syn.length = 4 ∧ s.lam.length = 5 ∧ s.omega.length = 4 ∧ s.gen.length = 5 ∧ s.root.length = 4 ∧
    s.posn.length = 4 ∧ s.mag.length = 4 ∧ s.bstat = List.replicate 32 0#32) ∧
  (s.locV = true → s.synV = true) ∧ (s.rootV = true → s.locV = true) ∧ (s.magV = true → s.rootV = true) ∧
  rd s.lam 0 = (if s.locV then 0x01#8 else 0#8) ∧ s.locL.toNat ≤ 4 ∧
  (∀ i, i < 5 → s.locL.toNat < i → rd s.lam i = 0#8) ∧
  (∀ k, k < 4 → (rd s.posn k).toNat < 8) ∧ (∀ k, k < 4 → (rd s.root k).toNat < 255)

theorem test_specTables : buildTables 0x11D#9 = some specTables := by decide +kernel

theorem test_specGen : buildGenerator specTables 4 4 1 = [0x74, 0xE7, 0xD8, 0x1E, 0x01] := by decide +kernel

/-- `ready` but for what a stage command, BUF writes and the host change. -/
abbrev FromReady (s : State) : Prop :=
  s.initDone = true ∧ s.cfgN = 8#8 ∧ s.cfgNpar = 4#8 ∧ s.cfgPrim = 0x11D#9 ∧ s.cfgFcr = 1#8 ∧
    s.tab = specTables ∧ s.gen = [0x74, 0xE7, 0xD8, 0x1E, 0x01]

theorem inv_of_check {s : State} (hr : FromReady s) (h : InvCheck s) : s.Inv := by
  obtain ⟨hd, hn, hnp, hp, hf, ht, hg⟩ := hr
  obtain ⟨hb, ⟨hw, hbl⟩, ⟨h1, h2, h3, h4, h5, h6, h7, h8⟩, hc1, hc2, hc3, hl0, hl, hdeg, hpos, hroot⟩ := h
  have hnn : s.n = 8 := by simp [State.n, hn]
  refine
    { build := by rw [hb]; rfl
      bufWf := hw
      bufBelow := by rw [hb]; exact hbl
      sized := ⟨by rw [h1, hb]; rfl, by rw [h2, hb]; rfl, by rw [h3, hb]; rfl, by rw [h4, hb]; rfl, by rw [h5, hb]; rfl,
        by rw [h6, hb]; rfl, by rw [h7, hb]; rfl, by rw [ht]; decide +kernel, by rw [ht]; decide +kernel,
        by rw [h8, hb]; rfl⟩
      bstatLayout := fun v hv => by
        rw [h8] at hv
        rw [List.eq_of_mem_replicate hv]
        rfl
      ready := fun _ => ⟨by simp [State.cfgLegal, State.n, State.npar, hn, hnp, hb, smallBuild],
        by rw [hp, ht]; exact test_specTables,
        by rw [hg, ht, hb]; simp only [State.npar, State.fcr, hnp, hf]; exact test_specGen.symm⟩
      untouched := by simp [hd]
      locChain := hc1
      rootChain := hc2
      magChain := hc3
      lamOne := fun hv => by rw [hl0, if_pos hv]
      lamDeg := fun _ => rd_eq_zero_of_bounded (by omega) hdeg
      locLe := fun _ => by simp only [State.npar, hnp]; exact hl
      posnLt := fun _ => by rw [hnn]; exact rd_lt_of_bounded (by omega) (by omega) hpos
      rootLt := fun _ => rd_lt_of_bounded (by omega) (by omega) hroot }

theorem ready_inv : ready.Inv := inv_of_check ⟨rfl, rfl, rfl, rfl, rfl, rfl, rfl⟩ (by decide +kernel)

theorem withSyn_inv : withSyn.Inv := inv_of_check ⟨rfl, rfl, rfl, rfl, rfl, rfl, rfl⟩ (by decide +kernel)

theorem withLoc_inv : withLoc.Inv := inv_of_check ⟨rfl, rfl, rfl, rfl, rfl, rfl, rfl⟩ (by decide +kernel)

theorem withRoot_inv : withRoot.Inv := inv_of_check ⟨rfl, rfl, rfl, rfl, rfl, rfl, rfl⟩ (by decide +kernel)

theorem withMag_inv : withMag.Inv := inv_of_check ⟨rfl, rfl, rfl, rfl, rfl, rfl, rfl⟩ (by decide +kernel)

theorem doubleRoot_inv : doubleRoot.Inv := inv_of_check ⟨rfl, rfl, rfl, rfl, rfl, rfl, rfl⟩ (by decide +kernel)

/-! ### The assembler's checks (R129): a term for each check, which the check refuses -/

theorem test_wf_refuses_wide_literals :
    (Stmt.gfAdd 256 0).wf = false ∧ (Stmt.gfAdd 0 256).wf = false ∧ (Stmt.gfMul 256 0).wf = false ∧
    (Stmt.gfMul 0 256).wf = false ∧ (Stmt.gfDiv 256 0).wf = false ∧ (Stmt.gfDiv 0 256).wf = false ∧
    (Stmt.gfInv 256).wf = false ∧ (Stmt.gfPow 256 0).wf = false ∧ (Stmt.gfPow 0 256).wf = false ∧
    (Stmt.gfSub 256 0).wf = false ∧ (Stmt.gfSub 0 256).wf = false ∧ (Stmt.gfSqr 256).wf = false ∧
    (Stmt.gfAlpha 256).wf = false ∧ (Stmt.synd 65536).wf = false ∧ (Stmt.correct 65536).wf = false ∧
    (Stmt.decodeBlk 65536).wf = false ∧ (Stmt.decodeSteps 65536).wf = false ∧ (Stmt.rd (.offset 65536)).wf = false ∧
    (Stmt.wr (.offset 65536) 0).wf = false ∧ (Stmt.wr (.offset 0) 4294967296).wf = false := by decide

/-- An element outside its name's window, and the first BUF word beyond the core's window. -/
theorem test_wf_refuses_elements :
    (Stmt.rd (.name (.syn 256))).wf = false ∧ (Stmt.rd (.name (.lambda 256))).wf = false ∧
    (Stmt.rd (.name (.omega 256))).wf = false ∧ (Stmt.rd (.name (.gen 256))).wf = false ∧
    (Stmt.rd (.name (.root 256))).wf = false ∧ (Stmt.rd (.name (.posn 256))).wf = false ∧
    (Stmt.rd (.name (.mag 256))).wf = false ∧ (Stmt.rd (.name (.exp 256))).wf = false ∧
    (Stmt.rd (.name (.log 256))).wf = false ∧ (Stmt.rd (.name (.bstat 256))).wf = false ∧
    (Stmt.wr (.name (.buf 12288)) 0).wf = false ∧ (Stmt.wr (.name .cmd) 4294967296).wf = false := by decide

theorem test_wf_accepts_widest_literals :
    (Stmt.gfMul 255 255).wf = true ∧ (Stmt.synd 65535).wf = true ∧ (Stmt.wr (.offset 65535) 4294967295).wf = true ∧
    (Stmt.rd (.name (.bstat 255))).wf = true ∧ (Stmt.wr (.name (.buf 12287)) 0).wf = true := by decide

/-- R130's expansion of CLRERR. -/
theorem test_assemble_clrErr :
    assemble .clrErr = some [.write 0x000C#16 .word 0x1FF#32, .write 0x0010#16 .word 0x3#32] := by decide

/-- R130's expansions of GF.SUB, GF.SQR and GF.ALPHA. -/
theorem test_assemble_pseudo :
    assemble (.gfSub 0x53 0xCA) = some [.write 0x0004#16 .word 0x00CA5310#32] ∧
    assemble (.gfSqr 0x80) = some [.write 0x0004#16 .word 0x00808011#32] ∧
    assemble (.gfAlpha 8) = some [.write 0x0004#16 .word 0x00080214#32] := by decide

/-- The beginning of 95_test_vectors.md P1, and its `RD CMD`: register names stand for R32's offsets. -/
theorem test_assemble_program :
    assembleProgram
      [.wr (.name .cfgN) 0x78, .wr (.name .cfgNpar) 0x10, .wr (.name .cfgPrim) 0x11D, .wr (.name .cfgFcr) 1, .init, .wait,
        .wr (.name .intStat) 3, .rd (.name .cmd)] =
      some
        [.write 0x018 .word 0x78, .write 0x01C .word 0x10, .write 0x020 .word 0x11D, .write 0x024 .word 1,
          .write 0x004 .word 0x00000001, .poll, .write 0x010 .word 3, .read 0x004 .word] ∧
    assembleProgram [.nop, .gfInv 256, .nop] = none := by decide

/-- V10's EXP[8], P2's RD 0x4074 (BUF word 29), and R32's last BSTAT word. -/
theorem test_register_names :
    regOffset (.name (.exp 8)) = 0x2020#16 ∧ regOffset (.name (.buf 29)) = 0x4074#16 ∧
    regOffset (.name (.bstat 255)) = 0x2BFC#16 ∧ regOffset (.name .nblk) = 0x0044#16 := by decide

/-- R32: the window begins at BASE and ends before BASE + 2^16. -/
theorem test_window :
    offsetAt smallBuild 0x80000000 = some 0x0000#16 ∧ offsetAt smallBuild 0x8000FFFF = some 0xFFFF#16 ∧
    offsetAt smallBuild 0x7FFFFFFF = none ∧ offsetAt smallBuild 0x80010000 = none ∧
    (HostAccess.write 0x80000004 .word 1).event smallBuild = .write 0x0004#16 .word 1 ∧
    (HostAccess.read 0x80010000 .word).event smallBuild = .idle := by decide

/-- R9's bounds, each just outside. -/
theorem test_build_legal :
    Build.default.legal = true ∧ Build.legal ⟨49152, 254, 1, 0⟩ = true ∧ Build.legal ⟨256, 2, 256, 0⟩ = true ∧
    Build.legal ⟨252, 2, 1, 0⟩ = false ∧ Build.legal ⟨49156, 2, 1, 0⟩ = false ∧ Build.legal ⟨258, 2, 1, 0⟩ = false ∧
    Build.legal ⟨256, 0, 1, 0⟩ = false ∧ Build.legal ⟨256, 3, 1, 0⟩ = false ∧ Build.legal ⟨256, 256, 1, 0⟩ = false ∧
    Build.legal ⟨256, 2, 0, 0⟩ = false ∧ Build.legal ⟨256, 2, 257, 0⟩ = false := by decide

/-! ### Decoding: words of 95_test_vectors.md V1, V10 and V11, and words written out from R121 to R125 -/

theorem test_decode_format_n :
    decode 0x00000000#32 = .ok .nop ∧ decode 0x00000001#32 = .ok .init ∧ decode 0x00000021#32 = .ok .bm ∧
    decode 0x00000022#32 = .ok .chien ∧ decode 0x00000023#32 = .ok .forney ∧
    decode 0x00000031#32 = .ok .decodeBuf := by decide

/-- RSV 00, B CA, A 53, OPC: the operands in their places. -/
theorem test_decode_format_g :
    decode 0x00CA5310#32 = .ok (.gfAdd 0x53 0xCA) ∧ decode 0x00CA5311#32 = .ok (.gfMul 0x53 0xCA) ∧
    decode 0x00CA8F12#32 = .ok (.gfDiv 0x8F 0xCA) ∧ decode 0x0000FF13#32 = .ok (.gfInv 0xFF) ∧
    decode 0x00FE0214#32 = .ok (.gfPow 0x02 254) := by decide

/-- RSV 00, BLK 0x1234, OPC. -/
theorem test_decode_format_b :
    decode 0x00123420#32 = .ok (.synd 0x1234) ∧ decode 0x00123424#32 = .ok (.correct 0x1234) ∧
    decode 0x00FFFF30#32 = .ok (.decodeBlk 0xFFFF) := by decide

/-- V10's illegal words. -/
theorem test_decode_illegal :
    decode 0x00000002#32 = .error .reservedOpcode ∧ decode 0x000000FF#32 = .error .reservedOpcode ∧
    decode 0x00000121#32 = .error .reservedField ∧ decode 0x01000020#32 = .error .reservedField ∧
    decode 0x00010213#32 = .error .invOperand := by decide

/-- R126: 242 of the 256 opcodes are reserved. -/
theorem test_decode_reserved_count :
    ((List.range 256).filter fun opc => (decodeTableWord 32 opc).isNone).length = 242 := by decide +kernel

/-! ### One step of each command, with the values of 95_test_vectors.md -/

/-- TC1 (R11) at the default build, with GEN from V5. -/
def tc1 : State :=
  { State.reset with
    cfgN := 120, cfgNpar := 16, cfgPrim := 0x11D, cfgFcr := 1, initDone := true, tab := specTables
    gen := [0x4F, 0x2C, 0x51, 0x64, 0x31, 0xB7, 0x38, 0x11, 0xE8, 0xBB, 0x7E, 0x68, 0x1F, 0x67, 0x34, 0x76, 0x01] ++
      List.replicate 16 0 }

/-- What a command word leaves, run from its completion point. -/
def ran (w : Nat) (s : State) : State := stepped (s.withFetchWord 32 w)

/-- V10, after reset. -/
theorem test_nop : (ran 0x00000000 State.reset).res = .ok ∧ (ran 0x00000000 State.reset).intStat = 1#2 := by decide +kernel

/-- V10, INIT with CFG all 0. -/
theorem test_init_illegal : (ran 0x00000001 State.reset).res = .rejected ∧ (ran 0x00000001 State.reset).err = 0x004#9 := by
  decide +kernel

/-- V5, GEN for TC2 (NPAR = 10, FCR = 0). -/
theorem test_init_gen :
    (ran 0x00000001 { State.reset with cfgN := 120, cfgNpar := 10, cfgPrim := 0x11D }).gen.take 11 =
      [0xC1, 0x9D, 0x71, 0x5F, 0x5E, 0xC7, 0x6F, 0x9F, 0xC2, 0xD8, 0x01] := by decide +kernel

/-- V1. -/
theorem test_gfAdd : (ran 0x00CA5310 ready).result = 0x99#8 := by decide +kernel

/-- V1. -/
theorem test_gfMul : (ran 0x00CA5311 ready).result = 0x8F#8 ∧ (ran 0x00FFFF11 ready).result = 0xE2#8 := by decide +kernel

/-- V1. -/
theorem test_gfDiv : (ran 0x00CA8F12 ready).result = 0x53#8 ∧ (ran 0x00003712 ready).err = 0x008#9 := by decide +kernel

/-- V1. -/
theorem test_gfInv : (ran 0x00005313 ready).result = 0x8C#8 ∧ (ran 0x00000013 ready).err = 0x008#9 := by decide +kernel

/-- V1. -/
theorem test_gfPow : (ran 0x00190314 ready).result = 0x7C#8 ∧ (ran 0x00000014 ready).result = 0x01#8 := by decide +kernel

/-- R194's example: one byte 01 at degree 0 of a zero block. -/
theorem test_synd :
    (ran 0x00000020 { tc1 with buf := [(119, 0x01)] }).syn = List.replicate 16 1 ++ List.replicate 16 0 := by
  decide +kernel

/-- The syndromes of V7.3. -/
def syn73 : List Byte :=
  [0x60, 0xE2, 0xBF, 0x40, 0x75, 0xC2, 0x28, 0x3D, 0x1D, 0x8A, 0xF7, 0x9F, 0xD7, 0x08, 0xAA, 0x60] ++
    List.replicate 16 0

/-- V7.3's SYND: a codeword adds nothing to the syndromes (R195), so the errors FF at byte 0 and 55 at byte 119 alone
have V7.3's. -/
theorem test_synd_two_errors :
    (ran 0x00000020 { tc1 with buf := [(0, 0xFF), (119, 0x55)] }).syn = syn73 := by decide +kernel

/-- V7.3's BM. -/
theorem test_bm :
    (ran 0x00000021 { tc1 with syn := syn73, synV := true }).lam.take 4 = [0x01, 0x92, 0x93, 0] ∧
    (ran 0x00000021 { tc1 with syn := syn73, synV := true }).locL = 2#8 := by decide +kernel

/-- V7.3's CHIEN: ROOT and POSN. NPAR = 4 is enough for its LAMBDA. -/
theorem test_chien :
    let t := ran 0x00000022
      { tc1 with cfgNpar := 4, lam := [0x01, 0x92, 0x93] ++ List.replicate 30 0, locL := 2, locV := true }
    t.root.take 3 = [0, 119, 0] ∧ t.posn.take 3 = [119, 0, 0] := by decide +kernel

/-- V7.3's FORNEY. -/
theorem test_forney :
    (ran 0x00000023
      { tc1 with
        syn := syn73, lam := [0x01, 0x92, 0x93] ++ List.replicate 30 0, root := [0, 119] ++ List.replicate 30 0
        nroots := 2, rootV := true }).mag.take 3 = [0x55, 0xFF, 0] := by decide +kernel

/-- V7.5's FORNEY, at FCR = 0: the factor X^(1-FCR). -/
theorem test_forney_fcr0 :
    (ran 0x00000023
      { tc1 with
        cfgNpar := 10, cfgFcr := 0
        syn := [0xAA, 0x60, 0xE2, 0xBF, 0x40, 0x75, 0xC2, 0x28, 0x3D, 0x1D] ++ List.replicate 22 0
        lam := [0x01, 0x92, 0x93] ++ List.replicate 30 0, root := [0, 119] ++ List.replicate 30 0
        nroots := 2, rootV := true }).mag.take 3 = [0x55, 0xFF, 0] := by decide +kernel

/-- V7.8 on the zero codeword: both errors go. -/
theorem test_correct :
    (ran 0x00000024
      { tc1 with
        buf := [(0, 0xFF), (119, 0x55)], posn := [119, 0] ++ List.replicate 30 0
        mag := [0x55, 0xFF] ++ List.replicate 30 0, nroots := 2, magV := true }).buf = [] := by decide +kernel

/-- V8.2 on the zero codeword, with NPAR = 4: one error at byte 5. -/
theorem test_decodeBlk :
    let t := ran 0x00000030 { tc1 with cfgNpar := 4, buf := [(5, 0x01)] }
    t.buf = [] ∧ t.bstat.getD 0 0 = 0x80000100#32 := by decide +kernel

/-- V7.7's exit at the root count (UNCORR_ROOTS), on V7.7's own block. -/
theorem test_decodeBlk_fails :
    (ran 0x00000030
      { tc1 with
        buf := [(104, 0x44), (105, 0xFF), (106, 0x45), (107, 0x65), (108, 0x2C), (109, 0x61), (110, 0x69), (111, 0x1B),
          (112, 0xE1), (113, 0xE8), (114, 0xFA), (115, 0x6E), (116, 0x46), (117, 0x88), (118, 0x09), (119, 0xF7)] }).bstat.getD
        0 0 = 0x80000002#32 := by decide +kernel

/-- R282's example at two blocks: zero codewords, and BSTAT beyond them 0. -/
theorem test_decodeBuf :
    (ran 0x00000031 { tc1 with bufLen := 240 }).nblk = 2#16 ∧
    (ran 0x00000031 { tc1 with bufLen := 240 }).bstat.take 3 = [0x80000000, 0x80000000, 0] := by decide +kernel

/-- V9.3: BUF_LEN = 100 is no multiple of N. -/
theorem test_decodeBuf_range : (ran 0x00000031 { tc1 with bufLen := 100 }).err = 0x040#9 := by decide +kernel

/-! ### The host's port (V10, R93) -/

theorem test_read_id : (stepped (rdAt 0x0000 State.reset)).rdata = 0x52530100#32 := by decide +kernel

/-- V10: EXP[8]. -/
theorem test_read_exp : (stepped (rdAt 0x2020 ready)).rdata = 0x1D#32 := by decide +kernel

/-- V10: a 32-bit read at 0x0006. -/
theorem test_read_misaligned :
    (stepped (rdAt 0x0006 ready)).rdata = 0#32 ∧ (stepped (rdAt 0x0006 ready)).err = 0x100#9 := by decide +kernel

/-- V10: a CFG_N write after INIT. -/
theorem test_write_locked : (stepped (wr 0x0018 60 ready)).cfgN = 8#8 ∧ (stepped (wr 0x0018 60 ready)).err = 0x080#9 := by
  decide +kernel

/-- R93: the lowest byte of the word lies at the lowest index. -/
theorem test_write_buf : (stepped (wr 0x4008 0x2A1B3BA9 fresh)).buf = [(8, 0xA9), (9, 0x3B), (10, 0x1B), (11, 0x2A)] := by
  decide +kernel

/-! ### States and operands that meet the hypotheses of each obligation -/

theorem writes_wr (addr : Addr) (v : Word) (s : State) : Writes (wr addr v s) addr v [] := rfl

theorem reads_rdAt (addr : Addr) (s : State) : Reads (rdAt addr s) addr [] := rfl

/-- IllegalWordIsRejected: a state at the completion point of an illegal word. -/
theorem witness_illegalWord :
    (running 0x02 0 fresh).running = some 0 ∧ (running 0x02 0 fresh).pending = [] ∧ IllegalWord 0x02#32 := by
  unfold IllegalWord
  decide

/-- IllegalWordIsRejected: the ends of every range of R126, illegal inside and not outside. -/
theorem witness_illegalWord_bounds :
    (∀ w ∈ [0x02#32, 0x0F#32, 0x15#32, 0x1F#32, 0x25#32, 0x2F#32, 0x32#32, 0xFF#32, 0x00000100#32, 0x80000031#32,
      0x01000010#32, 0x80000030#32, 0x00010013#32, 0x00FF0013#32], IllegalWord w) ∧
    ∀ w ∈ [0x00#32, 0x01#32, 0x00FFFF10#32, 0x0000FF13#32, 0x00FFFF14#32, 0x00FFFF20#32, 0x00FFFF24#32, 0x00FFFF30#32,
      0x31#32], ¬ IllegalWord w := by
  simp [IllegalWord]

/-- AssemblerNeverTruncates: the last literals that fit and the first that do not, in every operand form. -/
theorem witness_assembler_bounds :
    (LiteralsFit (.gfMul 255 255) ∧ OneCommand (.gfMul 255 255) ∧ ¬ LiteralsFit (.gfMul 256 0) ∧
      ¬ LiteralsFit (.gfMul 0 256)) ∧
    (LiteralsFit (.gfAlpha 255) ∧ OneCommand (.gfAlpha 255) ∧ ¬ LiteralsFit (.gfAlpha 256)) ∧
    (LiteralsFit (.synd 65535) ∧ OneCommand (.synd 65535) ∧ ¬ LiteralsFit (.synd 65536)) ∧
    (LiteralsFit (.wr (.offset 65535) 4294967295) ∧ ¬ LiteralsFit (.wr (.offset 65536) 0) ∧
      ¬ LiteralsFit (.wr (.offset 0) 4294967296)) ∧
    (LiteralsFit (.rd (.name (.bstat 255))) ∧ ¬ LiteralsFit (.rd (.name (.bstat 256)))) ∧
    LiteralsFit (.rd (.name (.buf 12287))) ∧ ¬ LiteralsFit (.rd (.name (.buf 12288))) ∧ (65535 ≤ 65535) := by
  simp [LiteralsFit, LiteralsFit.ElementFits, OneCommand]

/-- AssemblerNeverTruncates: a statement refused and a program with it, a program that assembles. -/
theorem witness_assembler_program :
    assemble (.gfSub 0 256) = none ∧ assembleProgram [.nop, .gfSub 0 256] = none ∧
    ∃ es, assembleProgram [.decodeSteps 65535, .clrErr] = some es := by
  refine ⟨by decide, by decide, _, rfl⟩

/-- StepRunsDecodedCommand: GF.MUL at its completion point, with each kind of host event. -/
theorem witness_stepRuns :
    let s := running 0x00800211 0 ready
    s.running = some 0 ∧ decode s.cmd = .ok (.gfMul 0x02 0x80) ∧ s.pending = [] ∧
    (host .idle s).pending = [.idle] ∧ (rdAt 0x0008 s).pending = [.read 0x0008 .word] ∧
    (wr 0x0010 3 s).pending = [.write 0x0010 .word 3] ∧ (host .poll s).pending = [.poll] := by decide

/-- CmdRegister: an accepted write, a dropped write in the cycle before the completing one, a read. -/
theorem witness_cmdRegister :
    (wr 0x0004 0x02 fresh).running = none ∧ Writes (wr 0x0004 0x02 fresh) 0x0004#16 0x02#32 [] ∧
    (wr 0x0004 0x00 (running 0x02 1 fresh)).running = some (0 + 1) ∧
    Writes (wr 0x0004 0x00 (running 0x02 1 fresh)) 0x0004#16 0x00#32 [] ∧ Reads (rdAt 0x0004 fresh) 0x0004#16 [] :=
  ⟨rfl, rfl, rfl, rfl, rfl⟩

/-- BusyLastsItsLatency, from no cycle to go and from three. -/
theorem witness_busyLasts :
    ((running 0x00 0 fresh).running = some 0 ∧ (running 0x00 0 fresh).pending = []) ∧
    (running 0x00 3 fresh).running = some 3 ∧ (running 0x00 3 fresh).pending = [] := by decide

/-- WaitLoopEnds, from no cycle to go and from three. -/
theorem witness_waitLoop :
    ((host .poll (running 0x00 0 fresh)).running = some 0 ∧ (host .poll (running 0x00 0 fresh)).pending = [.poll]) ∧
    (host .poll (running 0x00 3 fresh)).running = some 3 ∧
    (host .poll (running 0x00 3 fresh)).pending = .poll :: [] := by decide

theorem noRst_of_nil {s : State} (h : s.pending = []) : NoRst s := fun rest => by rw [h]; nofun

/-- A step from an idle host's state that has a command at its completion point. -/
theorem step_after {s : State} {i : Instr} (hp : s.pending = []) (hr : s.running = some 0) (hd : decode s.cmd = .ok i) :
    step s = .next (after i s) := by
  rw [step_of_pending_nil hp, hr]
  simp only [engineCycle, runCommand, hd]
  exact exec_after i s

/-- DoneWhenBusyFalls, PhaseMachine (from Busy), ConfigurationIsFrozen and ConfigurationLock (second part): a step that
ends a command, after INIT. -/
theorem witness_busyFalls :
    let s := running 0x00 0 ready
    NoRst s ∧ (∃ t, step s = .next t ∧ t.busy = false ∧ t.phase = .ready) ∧ s.busy = true ∧ s.phase = .busy ∧
      s.initDone = true :=
  ⟨noRst_of_nil rfl, ⟨_, step_after (i := .nop) rfl rfl (by decide), by decide, by decide⟩, by decide, by decide, by decide⟩

/-- PhaseMachine: Uninitialized, Ready, a cycle with rst, an accepted CMD write, INIT with a legal configuration. -/
theorem witness_phases :
    (NoRst fresh ∧ fresh.phase = .uninitialized ∧ ∃ t, step fresh = .next t) ∧
    (NoRst ready ∧ ready.phase = .ready ∧ ∃ t, step ready = .next t) ∧
    ((host .rst ready).pending = [.rst] ∧ ∃ t, step (host .rst ready) = .next t) ∧
    ((wr 0x0004 0x00 fresh).phase ≠ .busy ∧ Writes (wr 0x0004 0x00 fresh) 0x0004#16 0x00#32 []) ∧
    NoRst (running 0x01 0 configured) ∧ decode (running 0x01 0 configured).cmd = .ok .init ∧
      SizesOk (running 0x01 0 configured) ∧ (running 0x01 0 configured).cfgPrim = 0x11D#9 :=
  ⟨⟨noRst_of_nil rfl, by decide, _, rfl⟩, ⟨noRst_of_nil rfl, by decide, _, rfl⟩, ⟨rfl, _, rfl⟩,
    ⟨by decide, by unfold Writes; decide⟩, noRst_of_nil rfl, by decide, by unfold SizesOk; decide, rfl⟩

/-- The powers of x modulo 0x11D are EXP's entries (R62). -/
theorem polyPow_0x11D : ∀ i, i ≤ 255 → polyPow 0x11D#9 0x02#8 i = rd specTables.exp i
  | 0, _ => by decide +kernel
  | i + 1, h => by
    have hstep : ∀ i ∈ List.range 255, polyMul 0x11D#9 (rd specTables.exp i) 0x02#8 = rd specTables.exp (i + 1) := by
      decide +kernel
    rw [polyPow, polyPow_0x11D i (by omega)]
    exact hstep i (List.mem_range.mpr (by omega))

/-- 0x11D is primitive (R157). -/
theorem primitive_0x11D : Primitive 0x11D#9 := by
  have hne : ∀ e ∈ List.range 255, 0 < e → rd specTables.exp e ≠ 0x01#8 := by decide +kernel
  refine ⟨by decide, ?_, fun e h0 he => ?_⟩
  · rw [polyPow_0x11D 255 (by omega)]
    decide +kernel
  · rw [polyPow_0x11D e (by omega)]
    exact hne e (List.mem_range.mpr he) h0

/-- RejectionIsPrecise: a DOMAIN rejection and INIT's, before and in its tables. -/
theorem witness_rejection :
    (∃ t, exec (.gfInv 0x00) ready = .next t ∧ t.res = .rejected) ∧
    (∃ t, exec .init fresh = .next t ∧ t.res = .rejected) ∧
    ∃ t, exec .init { configured with cfgPrim := 0x11B } = .next t ∧ t.res = .rejected :=
  ⟨⟨_, exec_after _ _, by decide +kernel⟩, ⟨_, exec_after _ _, by decide +kernel⟩, _, exec_after _ _, by decide +kernel⟩

/-- CompletionFlags and ResultCodesPerCommand: ends of each kind, the uncorrectable ones of BM and CHIEN among them. -/
theorem witness_completions :
    (∃ t, exec .nop fresh = .next t ∧ t.res ≠ .rejected) ∧
    (∃ t, exec .bm { withSyn with syn := [0, 0, 0, 1] } = .next t ∧ t.res = .uncorrDegree) ∧
    (∃ t, exec .chien { withLoc with lam := [1, 0, 1, 0, 0], locL := 2 } = .next t ∧ t.res = .uncorrRoots) ∧
    ∃ t, exec .decodeBuf ready = .next t ∧ t.res = .ok :=
  ⟨⟨_, exec_after _ _, by decide +kernel⟩, ⟨_, exec_after _ _, by decide +kernel⟩, ⟨_, exec_after _ _, by decide +kernel⟩,
    _, exec_after _ _, by decide +kernel⟩

/-- NotInitRejects. -/
theorem witness_notInit : (Instr.bm ≠ .nop) ∧ (Instr.bm ≠ .init) ∧ fresh.initDone = false := by decide

/-- OutOfSequenceRejects: each stage's input missing. -/
theorem witness_outOfSequence :
    ready.initDone = true ∧ ready.synV = false ∧ withSyn.locV = false ∧ withLoc.rootV = false ∧ withRoot.magV = false := by
  decide

/-- InRange at the small build: 32 blocks of 8 bytes fill BUF, and BLK_MAX is 32. -/
theorem inRange_bounds :
    InRange 0#16 ready ∧ InRange 31#16 ready ∧ ¬ InRange 32#16 ready ∧ ¬ InRange 65535#16 ready := by
  unfold InRange
  decide

/-- OutOfRangeRejects: past BLK_MAX alone, past BUF_BYTES alone, and each way R283 can fail. -/
theorem witness_outOfRange :
    withMag.initDone = true ∧ withMag.magV = true ∧
    ¬ InRange 4#16 { withMag with build := { smallBuild with blkMax := 4 } } ∧
    ¬ InRange 32#16 { withMag with build := { smallBuild with blkMax := 40 } } ∧
    ¬ BufLenOk { ready with bufLen := 264 } ∧ ¬ BufLenOk { ready with bufLen := 7 } ∧
    ¬ BufLenOk { ready with bufLen := 40, build := { smallBuild with blkMax := 4 } } := by
  unfold InRange BufLenOk
  decide

/-- DomainRejects: a zero denominator. -/
theorem witness_domain :
    doubleRoot.initDone = true ∧ doubleRoot.rootV = true ∧ ∃ k, k < doubleRoot.nroots.toNat ∧ denominator doubleRoot k = 0#8 :=
  ⟨by decide, by decide, 0, by decide, by decide +kernel⟩

/-- FirstFailedCheckWins: each check failing with every earlier one passing, and two failing at once. -/
theorem witness_firstFailed :
    NotInitFails (.correct 32) fresh ∧
    (¬ NotInitFails (.correct 32) ready ∧ SeqFails (.correct 32) ready ∧ RangeFails (.correct 32) ready) ∧
    (¬ NotInitFails (.correct 32) withMag ∧ ¬ SeqFails (.correct 32) withMag ∧ RangeFails (.correct 32) withMag) ∧
    CfgFails .init fresh ∧
    (¬ NotInitFails (.gfDiv 0x37 0) ready ∧ ¬ SeqFails (.gfDiv 0x37 0) ready ∧ DomainFails (.gfDiv 0x37 0) ready) ∧
    (¬ NotInitFails .nop fresh ∧ ¬ SeqFails .nop fresh ∧ ¬ RangeFails .nop fresh ∧ ¬ CfgFails .nop fresh ∧
      ¬ DomainFails .nop fresh) := by
  unfold NotInitFails SeqFails RangeFails CfgFails DomainFails
  simp only [InRange, SizesOk]
  refine ⟨by decide, by decide, by decide, ⟨by decide, ?_⟩, by decide, by decide⟩
  intro h
  exact absurd h.1.1 (by decide)

/-- CommandFrames, OnlyInitWritesTables and ValidBitChain: a command that writes BUF, after INIT, from a state with the
invariant; and a cycle with rst. -/
theorem witness_frames :
    withMag.Inv ∧ (∃ t, exec (.correct 0) withMag = .next t ∧ t.res ≠ .rejected) ∧ withMag.initDone = true ∧
    (∃ t, exec (.gfInv 0) ready = .next t ∧ t.res = .rejected) ∧
    (host .rst withMag).pending = [.rst] ∧ ∃ t, step (host .rst withMag) = .next t :=
  ⟨withMag_inv, ⟨_, exec_after _ _, by decide +kernel⟩, by decide, ⟨_, exec_after _ _, by decide +kernel⟩, rfl, _, rfl⟩

/-- ValidBitChain: DECODE.BLK at each exit, and DECODE.BUF with no block and with some. -/
theorem witness_validBits_decode :
    (after (.decodeBlk 1) ready).synZero = true ∧
    ((after (.decodeBlk 0) ready).synZero = false ∧ (after (.decodeBlk 0) ready).res = .ok) ∧
    ready.bufLen.toNat / ready.cfgN.toNat = 0 ∧
    ({ ready with bufLen := 16 } : State).bufLen.toNat / ready.cfgN.toNat ≠ 0 := by decide +kernel

/-- ResetValues: rst in the middle of a command. -/
theorem witness_reset : (host .rst (running 0x30 5 withMag)).pending = .rst :: [] := rfl

/-- StepKeepsInv: a step that runs a command, from a state with the invariant. -/
theorem witness_stepKeepsInv : withSyn.Inv ∧ ∃ t, step withSyn = .next t := ⟨withSyn_inv, _, rfl⟩

/-- TablesAreExpAndLog, TableArithmeticIsPolynomial, FieldLaws, GeneratorIsProductOfRoots (NPAR = NPAR_MAX = 4),
SyndromesDependOnlyOnError (the zero codeword) and BmLoopInvariants: a field whose tables build, elements that are not 0. -/
theorem witness_tables :
    buildTables 0x11D#9 = some specTables ∧ (0x53#8 ≠ 0#8 ∧ 0xCA#8 ≠ 0#8) ∧ (4 ≤ 4 ∧ 3 < 4) ∧
    syndromeOf specTables 1 [0, 0, 0] 3 = 0#8 ∧ ([0, 0, 0] : List Byte).length = ([1, 2, 3] : List Byte).length ∧
    (withSyn.initDone = true ∧ withSyn.synV = true ∧ ∃ t, exec .bm withSyn = .next t) :=
  ⟨test_specTables, by decide, by decide, by decide +kernel, rfl, by decide, by decide, _, exec_after _ _⟩

/-- FieldCommandsComplete: operands that are not 0. -/
theorem witness_fieldCommands : ready.Inv ∧ ready.initDone = true ∧ 0xFF#8 ≠ 0#8 := ⟨ready_inv, by decide, by decide⟩

/-- InitEnds: done already; legal, at N = NPAR + 1; an illegal size, at N = NPAR; an illegal polynomial. -/
theorem witness_init :
    ready.initDone = true ∧ configured.initDone = false ∧ SizesOk { configured with cfgN := 5 } ∧
    Primitive configured.cfgPrim ∧ ¬ SizesOk { configured with cfgN := 4 } ∧ ¬ SizesOk { configured with cfgNpar := 3 } ∧
    ¬ SizesOk { configured with cfgNpar := 6 } ∧ ¬ SizesOk fresh ∧ SizesOk { configured with cfgPrim := 0x01D } ∧
    ¬ Primitive 0x01D#9 ∧ ¬ Primitive 0x11B#9 := by
  refine ⟨by decide, by decide, ?_, primitive_0x11D, ?_, ?_, ?_, ?_, ?_, fun h => absurd h.1 (by decide),
    fun h => h.2.2 51 (by decide) (by decide) (by decide +kernel)⟩ <;>
  · unfold SizesOk
    decide

/-- SyndComputesSyndromes, DecodeBlkOutcome, DecodeBlkRunsTheStages and CorrectAppliesMagnitudes: the first and the last
block in range. -/
theorem witness_block :
    ready.Inv ∧ ready.initDone = true ∧ InRange 0#16 ready ∧ InRange 31#16 ready ∧
    withMag.Inv ∧ withMag.initDone = true ∧ withMag.magV = true ∧ InRange 31#16 withMag :=
  ⟨ready_inv, by decide, inRange_bounds.1, inRange_bounds.2.1, withMag_inv, by decide, by decide, by unfold InRange; decide⟩

/-- DecodeBlkOutcome and DecodeBlkRunsTheStages: a codeword, a block corrected, and a failure of each kind but the
recheck's. -/
theorem witness_decodeBlk_exits :
    Codeword ready ready.buf 8 ∧ (after (.decodeBlk 0) ready).res = .ok ∧
    (after (.synd 1) ready).synZero = true ∧ (after (.synd 0) ready).synZero = false ∧
    (after .bm { withSyn with syn := [0, 0, 0, 1] }).res = .uncorrDegree ∧ (after .bm withSyn).res = .ok ∧
    (after .chien { doubleRoot with rootV := false }).res = .uncorrRoots ∧ (after .chien withLoc).res = .ok ∧
    (after .forney withRoot).res = .ok := by
  unfold Codeword
  decide +kernel

/-- BmFindsRecurrence: syndromes of one error, and all-zero ones. -/
theorem witness_bm :
    withSyn.Inv ∧ withSyn.initDone = true ∧ withSyn.synV = true ∧ (after .bm withSyn).locL = 1#8 ∧
    ({ withSyn with syn := [0, 0, 0, 0] } : State).Inv :=
  ⟨withSyn_inv, by decide, by decide, by decide +kernel, inv_of_check ⟨rfl, rfl, rfl, rfl, rfl, rfl, rfl⟩ (by decide +kernel)⟩

/-- ChienFindsAllRoots, ChienRootsAtMostDegree and ForneyRunsAfterFullFactoring. -/
theorem witness_chien :
    withLoc.Inv ∧ withLoc.initDone = true ∧ withLoc.locV = true ∧ ∃ t, exec .chien withLoc = .next t ∧ t.res = .ok :=
  ⟨withLoc_inv, by decide, by decide, _, exec_after _ _, by decide +kernel⟩

/-- ForneyComputesMagnitudes, with one root and with none. -/
theorem witness_forney :
    withRoot.Inv ∧ withRoot.initDone = true ∧ withRoot.rootV = true ∧
    (∀ k, k < withRoot.nroots.toNat → denominator withRoot k ≠ 0#8) ∧
    ∀ k, k < ({ withRoot with nroots := 0 } : State).nroots.toNat →
      denominator { withRoot with nroots := 0 } k ≠ 0#8 :=
  ⟨withRoot_inv, by decide, by decide, by decide +kernel, fun k hk => absurd hk (Nat.not_lt_zero k)⟩

/-- DecodeBlkIgnoresEverythingElse: two states that differ in the work state and in another block. -/
theorem witness_ignores :
    let s' : State := { withMag with buf := [(7, 0x01), (8, 0x55)] }
    ready.Inv ∧ s'.Inv ∧ ready.initDone = true ∧ s'.initDone = true ∧ ready.build = s'.build ∧ ready.cfgN = s'.cfgN ∧
    ready.cfgNpar = s'.cfgNpar ∧ ready.cfgPrim = s'.cfgPrim ∧ ready.cfgFcr = s'.cfgFcr ∧ InRange 0#16 ready ∧
    (∀ k, k < ready.cfgN.toNat →
      Memory.read ready.buf (base 0#16 ready + k) = Memory.read s'.buf (base 0#16 ready + k)) ∧ ready ≠ s' :=
  ⟨ready_inv, inv_of_check ⟨rfl, rfl, rfl, rfl, rfl, rfl, rfl⟩ (by decide +kernel), by decide, by decide, by decide, by decide, by decide,
    by decide, by decide, inRange_bounds.1, by decide, by decide +kernel⟩

/-- DecodeCorrectsUpToCapacity: the zero codeword with two bytes changed, t = 2; and the command's answer. -/
theorem witness_capacity :
    let s : State := { ready with buf := [(0, 0xFF), (7, 0x01)] }
    let c : Nat → Byte := fun _ => 0#8
    s.Inv ∧ s.initDone = true ∧ InRange 0#16 s ∧
    (∀ j, j < s.cfgNpar.toNat →
      powerSum s.tab s.cfgN.toNat (fun i => c (s.cfgN.toNat - 1 - i)) (s.tab.alpha ((s.cfgFcr.toNat + j) % 255)) = 0#8) ∧
    ((List.range s.cfgN.toNat).filter fun k => Memory.read s.buf (base 0#16 s + k) != c k).length = 2 ∧
    s.cfgNpar.toNat / 2 = 2 ∧ (after (.decodeBlk 0) s).buf = [] :=
  ⟨inv_of_check ⟨rfl, rfl, rfl, rfl, rfl, rfl, rfl⟩ (by decide +kernel), by decide, by unfold InRange; decide, by decide +kernel,
    by decide +kernel, by decide, by decide +kernel⟩

/-- DecodeCorrectsUpToCapacity, its second part: a corrected block, and a block whose search ends
with a root at or above N = 8. -/
theorem witness_capacity_any_block :
    ready.Inv ∧ ready.initDone = true ∧ InRange 0#16 ready ∧ (after (.decodeBlk 0) ready).res = .ok ∧
    (after (.decodeBlk 0) ready).synZero = false ∧
    (let s : State :=
      { ready with buf := [(0, 181), (1, 66), (2, 40), (3, 212), (4, 182), (5, 2), (6, 16), (7, 120)] };
      s.Inv ∧ s.initDone = true ∧ InRange 0#16 s ∧ (after (.decodeBlk 0) s).synZero = false ∧
      0 < (after (.decodeBlk 0) s).nroots.toNat ∧ s.cfgN.toNat ≤ (rd (after (.decodeBlk 0) s).root 0).toNat) :=
  ⟨ready_inv, by decide, inRange_bounds.1, by decide +kernel, by decide +kernel,
    inv_of_check ⟨rfl, rfl, rfl, rfl, rfl, rfl, rfl⟩ (by decide +kernel), by decide, by unfold InRange; decide,
    by decide +kernel, by decide +kernel, by decide +kernel⟩

/-- BufLenOk at its ends: no block, the whole of BUF. -/
theorem bufLenOk_bounds : BufLenOk ready ∧ BufLenOk { ready with bufLen := 256 } ∧ ¬ BufLenOk { ready with bufLen := 264 } := by
  unfold BufLenOk
  decide

/-- DecodeBufOutcome and DecodeBufIsBlockByBlock: no block, and a buffer of a good and a failed block. -/
theorem witness_decodeBuf :
    (ready.Inv ∧ ready.initDone = true ∧ BufLenOk ready) ∧
    (let s : State := { ready with bufLen := 16, buf := [(0, 0x01), (8, 0x12), (9, 0x34), (10, 0x56), (11, 0x78)] };
      s.Inv ∧ s.initDone = true ∧ BufLenOk s ∧ (after .decodeBuf s).nfail = 1#16 ∧ (after .decodeBuf s).totalCorr = 1#16) :=
  ⟨⟨ready_inv, by decide, bufLenOk_bounds.1⟩, inv_of_check ⟨rfl, rfl, rfl, rfl, rfl, rfl, rfl⟩ (by decide +kernel), by decide,
    by unfold BufLenOk; decide, by decide +kernel, by decide +kernel⟩

/-- UnsupportedAccess: a byte access, a misaligned word, the reserved size; idle and busy. -/
theorem witness_unsupported :
    (Size.byte ≠ .word ∨ (0x4000#16).toNat % 4 ≠ 0) ∧ (Size.word ≠ .word ∨ (0x0006#16).toNat % 4 ≠ 0) ∧
    (Size.reserved ≠ .word ∨ (0x0000#16).toNat % 4 ≠ 0) ∧
    (host (.write 0x4000 .byte 1) ready).running = none ∧
    (host (.read 0x0006 .word) (running 0x00 0 ready)).running = some 0 ∧
    (host (.write 0x0000 .reserved 1) (running 0x00 3 ready)).running = some 3 := by decide

/-- WritesWhileBusy: a dropped target at each end of each range, and one that is only ignored beside it (with
`writes_wr`); the completing cycle and one before it. -/
theorem witness_writesBusy :
    (∀ addr ∈ [0x0004#16, 0x0018#16, 0x0028#16, 0x4000#16, 0x40FC#16],
      addr.toNat % 4 = 0 ∧ BusyTarget smallBuild addr) ∧
    (∀ addr ∈ [0x0000#16, 0x0008#16, 0x002C#16, 0x3FFC#16, 0x4100#16],
      addr.toNat % 4 = 0 ∧ ¬ BusyTarget smallBuild addr ∧ addr.toNat ∉ [0x00C, 0x010, 0x014]) ∧
    (wr 0x000C 1 (running 0x00 0 ready)).running = some 0 ∧ (wr 0x000C 1 (running 0x00 2 ready)).running = some 2 := by
  refine ⟨by simp [BusyTarget, smallBuild], by simp [BusyTarget, smallBuild], rfl, rfl⟩

/-- ReadsWhileBusy: a register, and the ends of the EXP, LOG and GEN windows. -/
theorem witness_readsBusy :
    let s := rdAt 0x0008 (running 0x00 0 ready)
    s.running = some 0 ∧ Reads s 0x0008#16 [] ∧ (0x0008, s.statusWord) ∈ definedRegisters s ∧ s.initDone = true ∧
    (0x1000#16).toNat = 0x1000 + 4 * 0 ∧ (0x13FC#16).toNat = 0x1000 + 4 * 255 ∧ (0x23FC#16).toNat = 0x2000 + 4 * 255 ∧
    (0x27FC#16).toNat = 0x2400 + 4 * 255 := by
  refine ⟨rfl, rfl, ?_, rfl, by decide, by decide, by decide, by decide⟩
  simp [definedRegisters]

/-- ReadsWhileIdle: a result register, the last entry of a window, the first word beyond an array, the last BSTAT word. -/
theorem witness_readsIdle :
    let s := rdAt 0x002C withMag
    s.Inv ∧ s.running = none ∧ Reads s 0x002C#16 [] ∧
    (0x02C, s.result.zeroExtend 32) ∈ definedRegisters s ++ resultRegisters s ∧ (0x0400, s.syn) ∈ windows s ∧
    (0x040C#16).toNat = 0x0400 + 4 * 3 ∧ (0x0410#16).toNat = 0x0400 + 4 * 4 ∧ (0x2BFC#16).toNat = 0x2800 + 4 * 255 := by
  refine ⟨inv_of_check ⟨rfl, rfl, rfl, rfl, rfl, rfl, rfl⟩ (by decide +kernel), rfl, rfl, ?_, ?_, rfl, rfl, rfl⟩
  · simp [resultRegisters]
  · simp [windows]

/-- ConfigurationLock: a CFG write before and after INIT. -/
theorem witness_lock :
    ((wr 0x0018 60 ready).running = none ∧ (wr 0x0018 60 ready).initDone = true ∧
      Writes (wr 0x0018 60 ready) 0x0018#16 60#32 []) ∧
    (wr 0x0024 60 fresh).running = none ∧ (wr 0x0024 60 fresh).initDone = false ∧
      Writes (wr 0x0024 60 fresh) 0x0024#16 60#32 [] := by
  unfold Writes
  decide

/-- WritesWhileIdle: every writable register that never locks (with `writes_wr`), and the ends of the read-only ranges. -/
theorem witness_writesIdle :
    Writes (wr 0x000C 3 ready) 0x000C#16 3#32 [] ∧ (wr 0x000C 3 ready).running = none ∧
    Writes (wr 0x0010 3 ready) 0x0010#16 3#32 [] ∧ Writes (wr 0x0014 3 ready) 0x0014#16 3#32 [] ∧
    Writes (wr 0x0028 3 ready) 0x0028#16 3#32 [] ∧
    ∀ addr ∈ [0x0000#16, 0x0044#16, 0x0400#16, 0x2BFC#16], addr.toNat % 4 = 0 ∧
      (addr.toNat ∈ [0x000, 0x008, 0x02C, 0x030, 0x034, 0x038, 0x03C, 0x040, 0x044] ∨
        (0x400 ≤ addr.toNat ∧ addr.toNat < 0x2C00)) :=
  ⟨rfl, rfl, rfl, rfl, rfl, by simp⟩

/-- BufWordsLittleEndian: the last word of BUF, written and read. -/
theorem witness_bufWords :
    (wr 0x40FC 0x2A1B3BA9 ready).Inv ∧ (wr 0x40FC 0x2A1B3BA9 ready).running = none ∧
    (0x40FC#16).toNat = 0x4000 + 4 * 63 ∧ 4 * 63 < smallBuild.bufBytes ∧
    Writes (wr 0x40FC 0x2A1B3BA9 ready) 0x40FC#16 0x2A1B3BA9#32 [] ∧ Reads (rdAt 0x40FC ready) 0x40FC#16 [] :=
  ⟨inv_of_check ⟨rfl, rfl, rfl, rfl, rfl, rfl, rfl⟩ (by decide +kernel), rfl, rfl, by decide, rfl, rfl⟩

/-- ReservedOffsetsReadZero: the ends of the three reserved ranges, and their neighbours (with `writes_wr` and
`reads_rdAt`). -/
theorem witness_reserved :
    (∀ addr ∈ [0x0048#16, 0x03FC#16, 0x2C00#16, 0x3FFC#16, 0x4100#16, 0xFFFC#16],
      ReservedOffset smallBuild addr ∧ addr.toNat % 4 = 0) ∧
    ∀ addr ∈ [0x0044#16, 0x0400#16, 0x2BFC#16, 0x4000#16, 0x40FC#16], ¬ ReservedOffset smallBuild addr := by
  simp [ReservedOffset, smallBuild]

/-- SetWinsOverClear: the host clears INT_STAT in the cycle in which an illegal word is rejected. -/
theorem witness_setWins :
    let s := wr 0x0010 3 (running 0x02 0 ready)
    s.running = some 0 ∧ Writes s 0x0010#16 3#32 [] ∧ ∃ t, step s = .next t ∧ t.res = .rejected :=
  ⟨rfl, rfl, _, rfl, rfl⟩

/-- InterruptIsLevel: DONE pending when it is enabled, and the line high with an idle host. -/
theorem witness_interrupt :
    (let s := wr 0x0014 1 { ready with intStat := 1 };
      s.running = none ∧ Writes s 0x0014#16 1#32 [] ∧ s.intStat &&& (1#32).truncate 2 ≠ 0#2) ∧
    (let s : State := { ready with intStat := 1, intEn := 1 };
      s.irq = true ∧ NoRst s ∧ (∃ t, step s = .next t) ∧
        ∀ v rest, ¬ Writes s 0x0010#16 v rest ∧ ¬ Writes s 0x0014#16 v rest) :=
  ⟨⟨rfl, rfl, by decide⟩, by decide, noRst_of_nil rfl, ⟨_, rfl⟩, fun _ _ => ⟨nofun, nofun⟩⟩

end Sys2Proof.Tests
end

section
/-! What no step without reset changes after INIT (00_scope.md R9, 10_state.md R45, R109), and the invariant at reset.

The configuration, the tables and the generator are read off a state by one projection, `State.setup`. Every operation
of the model but INIT and the CFG_* writes keeps it whole; those two need INIT_DONE = 0 to change it, and keep the
build. `KeepsSetup` says both at once and composes along a cycle. -/

open Sys2Proof.Claims

namespace Sys2Proof.Machine

/-! ### The setup of a core -/

/-- What stays from INIT to reset: the build, INIT_DONE, the four CFG_* registers, the tables, the generator. -/
structure Setup where
  build : Build
  initDone : Bool
  cfgN : BitVec 8
  cfgNpar : BitVec 8
  cfgPrim : BitVec 9
  cfgFcr : BitVec 8
  tab : Tables
  gen : List Byte

/-- The setup a state holds. -/
def State.setup (s : State) : Setup where
  build := s.build
  initDone := s.initDone
  cfgN := s.cfgN
  cfgNpar := s.cfgNpar
  cfgPrim := s.cfgPrim
  cfgFcr := s.cfgFcr
  tab := s.tab
  gen := s.gen

/-- Two states hold one setup exactly when they agree on each of its parts. -/
theorem State.setup_eq_iff {s t : State} :
    t.setup = s.setup ↔ t.build = s.build ∧ t.initDone = s.initDone ∧ t.cfgN = s.cfgN ∧
      t.cfgNpar = s.cfgNpar ∧ t.cfgPrim = s.cfgPrim ∧ t.cfgFcr = s.cfgFcr ∧ t.tab = s.tab ∧ t.gen = s.gen :=
  Setup.mk.injEq .. |>.to_iff

@[simp] theorem State.complete_setup (r : Res) (s : State) : (s.complete r).setup = s.setup := rfl
@[simp] theorem State.raiseErr_setup (c : Cause) (s : State) : (s.raiseErr c).setup = s.setup := rfl
@[simp] theorem State.reject_setup (c : Cause) (s : State) : (s.reject c).setup = s.setup := rfl
@[simp] theorem State.giveResult_setup (v : Byte) (s : State) : (s.giveResult v).setup = s.setup := rfl
@[simp] theorem State.syndBody_setup (base : Nat) (s : State) : (s.syndBody base).setup = s.setup := rfl
@[simp] theorem State.bmBody_setup (s : State) : s.bmBody.setup = s.setup := rfl
@[simp] theorem State.chienBody_setup (s : State) : s.chienBody.setup = s.setup := rfl
@[simp] theorem State.forneyBody_setup (s : State) : s.forneyBody.setup = s.setup := rfl
@[simp] theorem State.correctBody_setup (base : Nat) (s : State) : (s.correctBody base).setup = s.setup := rfl
@[simp] theorem State.setBstat_setup (b : Nat) (v : Word) (s : State) : (s.setBstat b v).setup = s.setup := rfl
@[simp] theorem BlockEnd.record_setup (e : BlockEnd) (blk : BitVec 16) : (e.record blk).setup = e.st.setup := rfl
@[simp] theorem BufAcc.record_setup (p : BufAcc) (nb : Nat) : (p.record nb).setup = p.st.setup := rfl

/-- A host read keeps the setup, supported or not (R99). -/
@[simp] theorem State.hostRead_setup (addr : Addr) (size : Size) (s : State) :
    (s.hostRead addr size).setup = s.setup :=
  (congrArg State.setup (hostRead_frame addr size s)).trans rfl

/-! ### The block decoder keeps the setup -/

@[simp] theorem State.repairBlock_setup (base : Nat) (w : List Byte) (s : State) :
    (s.repairBlock base w).st.setup = s.setup := by
  simp only [State.repairBlock]
  split <;> rfl

@[simp] theorem State.decodeBlock_setup (base : Nat) (s : State) : (s.decodeBlock base).st.setup = s.setup := by
  simp only [State.decodeBlock]
  split
  · exact syndBody_setup base s
  · split
    · simp
    · split <;> simp

@[simp] theorem bufTurn_setup (p : BufAcc) (b : Nat) : (bufTurn p b).st.setup = p.st.setup := by
  simp only [bufTurn]
  split <;> simp

/-- Each block of DECODE.BUF keeps the setup, so any number of them does. -/
@[simp] theorem State.decodeBlocks_setup (nb : Nat) (s : State) : (s.decodeBlocks nb).st.setup = s.setup := by
  induction nb with
  | zero => rfl
  | succ nb ih =>
    have hturn : s.decodeBlocks (nb + 1) = bufTurn (s.decodeBlocks nb) nb := by
      simp [State.decodeBlocks, List.range_succ]
    rw [hturn, bufTurn_setup, ih]

/-! ### Keeping the setup along a cycle -/

/-- From `s` to `t` the build parameters stay, and after INIT the whole setup does. -/
structure KeepsSetup (s t : State) : Prop where
  build : t.build = s.build
  setup : s.initDone = true → t.setup = s.setup

theorem KeepsSetup.of_setup_eq {s t : State} (h : t.setup = s.setup) : KeepsSetup s t :=
  ⟨congrArg Setup.build h, fun _ => h⟩

theorem KeepsSetup.trans {s t u : State} (hst : KeepsSetup s t) (htu : KeepsSetup t u) : KeepsSetup s u where
  build := htu.build.trans hst.build
  setup hd :=
    have ht : t.setup = s.setup := hst.setup hd
    have htd : t.initDone = true := (congrArg Setup.initDone ht).trans hd
    (htu.setup htd).trans ht

/-- A CFG_* write is refused after INIT (R45), so it keeps the setup where the register alone keeps the build. -/
theorem writeCfg_keepsSetup {s stored : State} (h : stored.build = s.build) : KeepsSetup s (s.writeCfg stored) := by
  unfold State.writeCfg
  split
  · exact .of_setup_eq (State.raiseErr_setup _ s)
  · rename_i hd
    exact ⟨h, fun hd' => absurd hd' hd⟩

/-- Of the writes with the core idle, only those to CFG_* touch the setup. -/
theorem writeIdle_keepsSetup (loc : Loc) (v : Word) (s : State) : KeepsSetup s (s.writeIdle loc v) := by
  cases loc with
  | cfgN => exact writeCfg_keepsSetup rfl
  | cfgNpar => exact writeCfg_keepsSetup rfl
  | cfgPrim => exact writeCfg_keepsSetup rfl
  | cfgFcr => exact writeCfg_keepsSetup rfl
  | _ => exact .of_setup_eq rfl

theorem writeBusy_setup (loc : Loc) (v : Word) (s : State) : (s.writeBusy loc v).setup = s.setup := by
  cases loc <;> rfl

theorem hostWrite_keepsSetup (addr : Addr) (size : Size) (v : Word) (s : State) :
    KeepsSetup s (s.hostWrite addr size v) := by
  simp only [State.hostWrite]
  split
  · split
    · exact .of_setup_eq (writeBusy_setup _ v s)
    · exact writeIdle_keepsSetup _ v s
  · exact .of_setup_eq (State.raiseErr_setup _ s)

theorem hostEvent_keepsSetup (e : HostEvent) (s : State) : KeepsSetup s (s.hostEvent e) := by
  cases e with
  | idle => exact .of_setup_eq rfl
  | rst => exact .of_setup_eq rfl
  | read addr size => exact .of_setup_eq (State.hostRead_setup addr size s)
  | write addr size v => exact hostWrite_keepsSetup addr size v s
  | poll => exact .of_setup_eq (State.hostRead_setup statusAddr .word s)

/-- The host's event of a cycle, taken off the coming events, keeps the setup. -/
theorem afterHost_keepsSetup (s : State) : KeepsSetup s s.afterHost := by
  have hpop : ∀ (rest : List HostEvent) e, KeepsSetup s ({ s with pending := rest }.hostEvent e) := fun rest e =>
    KeepsSetup.trans (t := { s with pending := rest }) (.of_setup_eq rfl) (hostEvent_keepsSetup e _)
  unfold State.afterHost
  split
  · exact .of_setup_eq rfl
  · exact hpop _ _
  · exact hpop _ _

/-- A command that keeps the setup when it completes keeps it when it is rejected too. -/
theorem commandEnd_keepsSetup {failed : Option Cause} {s ok t : State} (h : commandEnd failed s ok = .next t)
    (hok : ok.setup = s.setup) : KeepsSetup s t := by
  obtain ⟨c, -, rfl⟩ | ⟨-, rfl⟩ := commandEnd_cases h
  · exact .of_setup_eq (State.reject_setup c s)
  · exact .of_setup_eq hok

/-- INIT writes the setup only while INIT_DONE = 0 (R109, R161), and never the build. -/
theorem execInit_keepsSetup {s t : State} (h : execInit s = .next t) : KeepsSetup s t := by
  obtain ⟨-, rfl⟩ | ⟨-, -, rfl⟩ | ⟨hd, -, -, rfl⟩ | ⟨hd, -, tab, -, rfl⟩ := execInit_cases h
  · exact .of_setup_eq (State.complete_setup _ s)
  · exact .of_setup_eq (State.reject_setup _ s)
  · exact ⟨rfl, fun hd' => absurd hd' (by simp [hd])⟩
  · exact ⟨rfl, fun hd' => absurd hd' (by simp [hd])⟩

theorem exec_keepsSetup {i : Instr} {s t : State} (h : exec i s = .next t) : KeepsSetup s t := by
  cases i with
  | nop =>
    obtain rfl : s.complete .ok = t := Host.Outcome.next.inj h
    exact .of_setup_eq (State.complete_setup _ s)
  | init => exact execInit_keepsSetup h
  | _ => exact commandEnd_keepsSetup h (by simp)

theorem runCommand_keepsSetup {s t : State} (h : runCommand s = .next t) : KeepsSetup s t := by
  obtain ⟨i, -, hexec⟩ | ⟨e, -, rfl⟩ := runCommand_cases h
  · exact exec_keepsSetup hexec
  · exact .of_setup_eq (State.reject_setup _ s)

theorem engineCycle_keepsSetup {was : Option Nat} {s t : State} (h : engineCycle was s = .next t) :
    KeepsSetup s t := by
  obtain ⟨-, rfl⟩ | ⟨-, hrun⟩ | ⟨k, -, rfl⟩ := engineCycle_cases h
  · exact .of_setup_eq rfl
  · exact runCommand_keepsSetup hrun
  · exact .of_setup_eq rfl

/-- A cycle without reset: the host's event, then the command engine, each keep the setup. -/
theorem step_keepsSetup {s t : State} (hrst : NoRst s) (h : step s = .next t) : KeepsSetup s t := by
  obtain ⟨rest, hpending, -⟩ | ⟨-, hstep⟩ := step_cases s
  · exact absurd hpending (hrst rest)
  · exact (afterHost_keepsSetup s).trans (engineCycle_keepsSetup (hstep ▸ h))

/-- No cycle, reset included, changes the build parameters (R9, I9). -/
theorem step_build {s t : State} (h : step s = .next t) : t.build = s.build := by
  obtain ⟨rest, -, hstep⟩ | ⟨hrst, -⟩ := step_cases s
  · obtain rfl : s.afterRst rest = t := Host.Outcome.next.inj (hstep ▸ h)
    rfl
  · exact (step_keepsSetup hrst h).build

/-- Settles O22: every step without reset keeps the setup once INIT is done, and every step keeps the build. -/
theorem configurationIsFrozen : Obligations.ConfigurationIsFrozen := by
  refine ⟨fun s t => step_build, fun s t hd hrst h => ?_⟩
  obtain ⟨-, hinit, hrest⟩ := State.setup_eq_iff.mp ((step_keepsSetup hrst h).setup hd)
  exact ⟨hinit.trans hd, hrest⟩

/-! ### The invariant at reset -/

theorem reset_sized : State.reset.Sized where
  syn := List.length_replicate
  lam := List.length_replicate
  omega := List.length_replicate
  gen := List.length_replicate
  root := List.length_replicate
  posn := List.length_replicate
  mag := List.length_replicate
  exp := List.length_replicate
  log := List.length_replicate
  bstat := List.length_replicate

theorem reset_untouched : State.reset.Untouched := ⟨rfl, rfl, rfl, rfl, rfl, rfl, rfl, rfl, rfl⟩

/-- Settles O25: BUF lists no byte, the arrays have their sizes, BSTAT is all zero, and every clause about a valid bit
or about INIT_DONE = 1 has a false premise. -/
theorem invAtReset : Obligations.InvAtReset where
  build := rfl
  bufWf := rfl
  bufBelow := rfl
  sized := reset_sized
  bstatLayout v hv := by
    rw [List.eq_of_mem_replicate hv]
    rfl
  ready := nofun
  untouched _ := reset_untouched
  locChain := nofun
  rootChain := nofun
  magChain := nofun
  lamOne := nofun
  lamDeg := nofun
  locLe := nofun
  posnLt := nofun
  rootLt := nofun

end Sys2Proof.Machine
end

section
/-! The tables of build_tables as logarithms (40_field_engine.md R152 to R157).

A successful build_tables has walked the orbit of 1 under `xtime` once round: 255 turns that meet 1 only at the end. So
the orbit is all of the nonzero bytes, EXP lists it and LOG inverts it. -/

namespace Sys2Proof.Machine

/-! ### The powers of α by repeated xtime -/

/-- `α^i`, by i turns of `xtime` (R152). -/
def powX (prim : BitVec 9) (i : Nat) : Byte := (xtime prim)^[i] 0x01#8

@[simp] theorem powX_zero (prim : BitVec 9) : powX prim 0 = 0x01#8 := rfl

theorem powX_succ (prim : BitVec 9) (i : Nat) : powX prim (i + 1) = xtime prim (powX prim i) :=
  Function.iterate_succ_apply' ..

theorem iterate_xtime_powX (prim : BitVec 9) (i j : Nat) : (xtime prim)^[i] (powX prim j) = powX prim (i + j) :=
  (Function.iterate_add_apply ..).symm

@[simp] theorem xtime_zero (prim : BitVec 9) : xtime prim 0#8 = 0#8 := by simp [xtime]

/-- `xtime` is linear. -/
theorem xtime_xor (prim : BitVec 9) (u v : Byte) : xtime prim (u ^^^ v) = xtime prim u ^^^ xtime prim v := by
  unfold xtime
  apply BitVec.eq_of_getLsbD_eq
  intro i hi
  cases hu : u.getLsbD 7 <;> cases hv : v.getLsbD 7 <;>
    simp [hu, hv, hi] <;> grind

theorem iterate_xtime_xor (prim : BitVec 9) (i : Nat) (u v : Byte) :
    (xtime prim)^[i] (u ^^^ v) = (xtime prim)^[i] u ^^^ (xtime prim)^[i] v := by
  induction i with
  | zero => rfl
  | succ i ih => simp only [Function.iterate_succ_apply', ih, xtime_xor]

theorem iterate_xtime_zero (prim : BitVec 9) (i : Nat) : (xtime prim)^[i] 0#8 = 0#8 :=
  Function.iterate_fixed (xtime_zero prim) i

/-- x has order 255 modulo PRIM. -/
structure FullOrbit (prim : BitVec 9) : Prop where
  closes : powX prim 255 = 0x01#8
  first : ∀ k, 0 < k → k < 255 → powX prim k ≠ 0x01#8

namespace FullOrbit

variable {prim : BitVec 9} (h : FullOrbit prim)
include h

theorem powX_mod (i : Nat) : powX prim (i % 255) = powX prim i :=
  Function.IsPeriodicPt.iterate_mod_apply (f := xtime prim) h.closes i

theorem powX_ne {i j : Nat} (hij : i < j) (hj : j < 255) : powX prim i ≠ powX prim j := by
  intro heq
  refine h.first (255 - j + i) (by omega) (by omega) ?_
  calc powX prim (255 - j + i)
      = (xtime prim)^[255 - j] (powX prim j) := by rw [← iterate_xtime_powX, heq]
    _ = 0x01#8 := by rw [iterate_xtime_powX, Nat.sub_add_cancel (Nat.le_of_lt hj), h.closes]

theorem powX_inj {i j : Nat} (hi : i < 255) (hj : j < 255) (heq : powX prim i = powX prim j) : i = j := by
  rcases Nat.lt_trichotomy i j with hlt | hij | hlt
  · exact absurd heq (h.powX_ne hlt hj)
  · exact hij
  · exact absurd heq.symm (h.powX_ne hlt hi)

theorem powX_ne_zero (i : Nat) : powX prim i ≠ 0#8 := by
  rw [← h.powX_mod]
  have hi : i % 255 < 255 := Nat.mod_lt _ (by decide)
  intro hzero
  have hone : (xtime prim)^[255 - i % 255] (powX prim (i % 255)) = 0x01#8 := by
    rw [iterate_xtime_powX, Nat.sub_add_cancel (Nat.le_of_lt hi), h.closes]
  rw [hzero, iterate_xtime_zero] at hone
  exact absurd hone (by decide)

/-- 255 distinct nonzero bytes are all of them. -/
theorem exists_powX {v : Byte} (hv : v ≠ 0#8) : ∃ i, i < 255 ∧ powX prim i = v := by
  have hmaps : Set.MapsTo (fun i => (powX prim i).toNat) (Finset.range 255) (Finset.Ioo 0 256) := fun i _ => by
    have hne : (powX prim i).toNat ≠ 0 := fun h0 => h.powX_ne_zero i (BitVec.eq_of_toNat_eq h0)
    simpa using ⟨by omega, (powX prim i).isLt⟩
  have hinj : Set.InjOn (fun i => (powX prim i).toNat) (Finset.range 255) := fun i hi j hj heq =>
    h.powX_inj (by simpa using hi) (by simpa using hj) (BitVec.eq_of_toNat_eq heq)
  have hsurj := Finset.surjOn_of_injOn_of_card_le _ hmaps hinj (by simp)
  have hv0 : v.toNat ≠ 0 := fun h0 => hv (BitVec.eq_of_toNat_eq h0)
  obtain ⟨i, hi, heq⟩ := hsurj (show v.toNat ∈ _ by simpa using ⟨by omega, v.isLt⟩)
  exact ⟨i, by simpa using hi, BitVec.eq_of_toNat_eq heq⟩

end FullOrbit

/-! ### The loop of build_tables (R157) -/

/-- What the loop has done before turn i, if it has not failed. LOG is told where no two of the turns met. -/
structure BuildAcc.After (prim : BitVec 9) (i : Nat) (b : BuildAcc) : Prop where
  e : b.e = powX prim i
  first : ∀ k, 0 < k → k < i → powX prim k ≠ 0x01#8
  length_exp : b.tab.exp.length = 256
  length_log : b.tab.log.length = 256
  exp : i ≤ 256 → ∀ k, k < i → rd b.tab.exp k = powX prim k
  log : (∀ j k, j < k → k < i → powX prim j ≠ powX prim k) →
    ∀ k, k < i → rd b.tab.log (powX prim k).toNat = BitVec.ofNat 8 k

theorem BuildAcc.after_zero (prim : BitVec 9) : BuildAcc.After prim 0 { e := 0x01#8, tab := Tables.blank } where
  e := rfl
  first _ _ hk := absurd hk (Nat.not_lt_zero _)
  length_exp := List.length_replicate
  length_log := List.length_replicate
  exp _ _ hk := absurd hk (Nat.not_lt_zero _)
  log _ _ hk := absurd hk (Nat.not_lt_zero _)

theorem BuildAcc.After.turn {prim : BitVec 9} {i : Nat} {b b' : BuildAcc} (h : b.After prim i)
    (hturn : buildTurn prim (some b) i = some b') : b'.After prim (i + 1) := by
  simp only [buildTurn] at hturn
  split at hturn
  · exact absurd hturn nofun
  · rename_i hfirst
    obtain rfl := Option.some.inj hturn
    exact {
      e := by rw [powX_succ, h.e]
      first := fun k hk hki => by
        rcases Nat.lt_succ_iff_lt_or_eq.mp hki with hlt | rfl
        · exact h.first k hk hlt
        · exact fun hone => hfirst ⟨hk, h.e.trans hone⟩
      length_exp := by simp [h.length_exp]
      length_log := by simp [h.length_log]
      exp := fun hi k hki => by
        rcases Nat.lt_succ_iff_lt_or_eq.mp hki with hlt | rfl
        · rw [rd_set_other _ (Nat.ne_of_gt hlt), h.exp (by omega) k hlt]
        · rw [rd_set_self _ (by rw [h.length_exp]; omega), h.e]
      log := fun hinj k hki => by
        rcases Nat.lt_succ_iff_lt_or_eq.mp hki with hlt | rfl
        · have hne : b.e.toNat ≠ (powX prim k).toNat := fun heq =>
            hinj k i hlt (Nat.lt_succ_self i) (BitVec.eq_of_toNat_eq (h.e ▸ heq).symm)
          rw [rd_set_other _ hne]
          exact h.log (fun j k hjk hk => hinj j k hjk (Nat.lt_succ_of_lt hk)) k hlt
        · rw [← h.e, rd_set_self _ (by rw [h.length_log]; exact b.e.isLt)] }

theorem BuildAcc.after_of_loop {prim : BitVec 9} (i : Nat) {b : BuildAcc}
    (h : (List.range i).foldl (buildTurn prim) (some { e := 0x01#8, tab := Tables.blank }) = some b) :
    b.After prim i := by
  induction i generalizing b with
  | zero =>
    obtain rfl := Option.some.inj h
    exact after_zero prim
  | succ i ih =>
    rw [List.range_succ, List.foldl_append, List.foldl_cons, List.foldl_nil] at h
    cases hacc : (List.range i).foldl (buildTurn prim) (some { e := 0x01#8, tab := Tables.blank }) with
    | none =>
      rw [hacc] at h
      exact absurd h nofun
    | some acc => exact (ih hacc).turn (hacc ▸ h)

/-! ### The tables -/

/-- EXP is the orbit of 1, LOG its inverse (R62, R63). -/
structure Tables.Logs (prim : BitVec 9) (t : Tables) : Prop where
  monic : prim.getLsbD 8 = true
  orbit : FullOrbit prim
  length_exp : t.exp.length = 256
  length_log : t.log.length = 256
  exp : ∀ k, k < 255 → rd t.exp k = powX prim k
  exp_last : rd t.exp 255 = 0x01#8
  log : ∀ k, k < 255 → rd t.log (powX prim k).toNat = BitVec.ofNat 8 k
  log_zero : rd t.log 0 = 0xFF#8

theorem buildTables_logs {prim : BitVec 9} {t : Tables} (h : buildTables prim = some t) : t.Logs prim := by
  unfold buildTables at h
  split at h
  case isFalse => exact absurd h nofun
  case isTrue hmonic =>
    split at h
    case h_1 => exact absurd h nofun
    case h_2 b hloop =>
      split at h
      case isTrue => exact absurd h nofun
      case isFalse hclosed =>
        obtain rfl := Option.some.inj h
        have hafter := BuildAcc.after_of_loop 255 hloop
        have horbit : FullOrbit prim := ⟨hafter.e ▸ not_not.mp hclosed, hafter.first⟩
        exact {
          monic := hmonic
          orbit := horbit
          length_exp := by simp [hafter.length_exp]
          length_log := by simp [hafter.length_log]
          exp := fun k hk => by
            rw [rd_set_other _ (Nat.ne_of_gt hk), hafter.exp (by decide) k hk]
          exp_last := rd_set_self _ (by rw [hafter.length_exp]; decide)
          log := fun k hk => by
            have hne : 0 ≠ (powX prim k).toNat := fun h0 =>
              horbit.powX_ne_zero k (BitVec.eq_of_toNat_eq h0.symm)
            rw [rd_set_other _ hne]
            exact hafter.log (fun j k hjk hk => horbit.powX_ne hjk hk) k hk
          log_zero := rd_set_self _ (by rw [hafter.length_log]; decide) }

/-! ### α and LOG over the tables -/

theorem Tables.alpha_mod (t : Tables) (e : Nat) : t.alpha (e % 255) = t.alpha e := by
  rw [Tables.alpha, Tables.alpha, Nat.mod_mod]

namespace Tables.Logs

variable {prim : BitVec 9} {t : Tables} (h : t.Logs prim)
include h

/-- `α^e` from EXP is α^e by xtime, for every exponent. -/
theorem alpha_eq (e : Nat) : t.alpha e = powX prim e := by
  rw [Tables.alpha, h.exp _ (Nat.mod_lt _ (by decide)), h.orbit.powX_mod]

theorem lg_powX {i : Nat} (hi : i < 255) : t.lg (powX prim i) = i := by
  rw [Tables.lg, h.log i hi, BitVec.toNat_ofNat, Nat.mod_eq_of_lt (by omega)]

theorem lg_lt {v : Byte} (hv : v ≠ 0#8) : t.lg v < 255 := by
  obtain ⟨i, hi, rfl⟩ := h.orbit.exists_powX hv
  rwa [h.lg_powX hi]

theorem powX_lg {v : Byte} (hv : v ≠ 0#8) : powX prim (t.lg v) = v := by
  obtain ⟨i, hi, rfl⟩ := h.orbit.exists_powX hv
  rw [h.lg_powX hi]

theorem alpha_ne_zero (e : Nat) : t.alpha e ≠ 0#8 := h.alpha_eq e ▸ h.orbit.powX_ne_zero e

end Tables.Logs

end Sys2Proof.Machine
end

section
/-! The table operations are those of a field (40_field_engine.md R153 to R159), and Horner's rule gives the value of a
polynomial by its powers (R14).

Multiplication by a nonzero element is a power of `xtime`, which is linear; so the operations obey the field laws.
They are carried to a Mathlib field once (`exists_toField`), so that facts about polynomials can be taken from there. -/

namespace Sys2Proof.Machine

/-! ### The laws of the table operations -/

theorem gfMul_comm (t : Tables) (a b : Byte) : gfMul t a b = gfMul t b a := by
  simp only [gfMul, or_comm, Nat.add_comm]

namespace Tables.Logs

variable {prim : BitVec 9} {t : Tables} (h : t.Logs prim)
include h

theorem gfMul_powX (i j : Nat) : gfMul t (powX prim i) (powX prim j) = powX prim (i + j) := by
  have hlt : ∀ k, k % 255 < 255 := fun k => Nat.mod_lt _ (by decide)
  rw [gfMul, if_neg (not_or.mpr ⟨h.orbit.powX_ne_zero i, h.orbit.powX_ne_zero j⟩), h.alpha_eq,
    ← h.orbit.powX_mod i, ← h.orbit.powX_mod j, h.lg_powX (hlt i), h.lg_powX (hlt j),
    ← h.orbit.powX_mod (i % 255 + j % 255), ← Nat.add_mod, h.orbit.powX_mod]

/-- Multiplication by `α^i` is i turns of `xtime`. -/
theorem gfMul_powX_left (i : Nat) (b : Byte) : gfMul t (powX prim i) b = (xtime prim)^[i] b := by
  by_cases hb : b = 0#8
  · rw [hb, gfMul_zero_right, iterate_xtime_zero]
  · obtain ⟨j, -, rfl⟩ := h.orbit.exists_powX hb
    rw [h.gfMul_powX, iterate_xtime_powX]

theorem gfMul_xor (a b c : Byte) : gfMul t a (b ^^^ c) = gfMul t a b ^^^ gfMul t a c := by
  by_cases ha : a = 0#8
  · simp [ha]
  · obtain ⟨i, -, rfl⟩ := h.orbit.exists_powX ha
    simp only [h.gfMul_powX_left, iterate_xtime_xor]

theorem xor_gfMul (a b c : Byte) : gfMul t (a ^^^ b) c = gfMul t a c ^^^ gfMul t b c := by
  rw [gfMul_comm, h.gfMul_xor, gfMul_comm t c a, gfMul_comm t c b]

theorem gfMul_assoc (a b c : Byte) : gfMul t (gfMul t a b) c = gfMul t a (gfMul t b c) := by
  by_cases ha : a = 0#8
  · simp [ha]
  by_cases hb : b = 0#8
  · simp [hb]
  obtain ⟨i, -, rfl⟩ := h.orbit.exists_powX ha
  obtain ⟨j, -, rfl⟩ := h.orbit.exists_powX hb
  rw [h.gfMul_powX, h.gfMul_powX_left, h.gfMul_powX_left, h.gfMul_powX_left, Function.iterate_add_apply]

theorem one_gfMul (a : Byte) : gfMul t 0x01#8 a = a := h.gfMul_powX_left 0 a

theorem gfMul_one (a : Byte) : gfMul t a 0x01#8 = a := by rw [gfMul_comm, h.one_gfMul]

theorem gfMul_gfInv {a : Byte} (ha : a ≠ 0#8) : gfMul t a (gfInv t a) = 0x01#8 := by
  obtain ⟨i, hi, rfl⟩ := h.orbit.exists_powX ha
  rw [gfInv, h.lg_powX hi, h.alpha_eq, h.gfMul_powX, Nat.add_sub_cancel' (Nat.le_of_lt hi), h.orbit.closes]

theorem gfPow_zero (a : Byte) : gfPow t a 0 = 0x01#8 := by
  rw [gfPow]
  split
  · rfl
  · rw [Nat.mul_zero, h.alpha_eq, powX_zero]

theorem gfPow_succ (a : Byte) (e : Nat) : gfPow t a (e + 1) = gfMul t (gfPow t a e) a := by
  by_cases ha : a = 0#8
  · simp [ha, gfPow]
  · obtain ⟨i, hi, rfl⟩ := h.orbit.exists_powX ha
    rw [gfPow, gfPow, if_neg ha, if_neg ha, h.lg_powX hi, h.alpha_eq, h.alpha_eq, h.gfMul_powX, Nat.mul_succ]

end Tables.Logs

/-! ### A field behind the tables -/

/-- A map of the bytes into a field that carries the table operations to the field's. -/
structure ToField (t : Tables) (K : Type) [Field K] where
  map : Byte → K
  injective : Function.Injective map
  map_zero : map 0#8 = 0
  map_one : map 0x01#8 = 1
  map_xor : ∀ a b, map (a ^^^ b) = map a + map b
  map_mul : ∀ a b, map (gfMul t a b) = map a * map b

/-- A byte as a field element. -/
@[ext] structure Elem where
  val : Byte

/-- Zero, XOR and the identity: the field's additive part (R150). -/
@[reducible] def Elem.zero : Zero Elem := ⟨⟨0#8⟩⟩
@[reducible] def Elem.xor : Add Elem := ⟨fun a b => ⟨a.val ^^^ b.val⟩⟩
@[reducible] def Elem.id : Neg Elem := ⟨fun a => a⟩

/-- The field of the tables (R150, R159). -/
@[reducible] def Tables.Logs.field {prim : BitVec 9} {t : Tables} (h : t.Logs prim) : Field Elem where
  __ := Elem.zero
  __ := Elem.xor
  __ := Elem.id
  mul a b := ⟨gfMul t a.val b.val⟩
  one := ⟨0x01#8⟩
  inv a := if a.val = 0#8 then ⟨0#8⟩ else ⟨gfInv t a.val⟩
  nsmul := @nsmulRec Elem Elem.zero Elem.xor
  zsmul := @zsmulRec Elem Elem.zero Elem.xor Elem.id (@nsmulRec Elem Elem.zero Elem.xor)
  nnqsmul := _
  nnqsmul_def := fun _ _ => rfl
  qsmul := _
  qsmul_def := fun _ _ => rfl
  add_assoc a b c := Elem.ext (BitVec.xor_assoc ..)
  zero_add a := Elem.ext (BitVec.zero_xor ..)
  add_zero a := Elem.ext (BitVec.xor_zero ..)
  add_comm a b := Elem.ext (BitVec.xor_comm ..)
  neg_add_cancel a := Elem.ext BitVec.xor_self
  mul_assoc a b c := Elem.ext (h.gfMul_assoc ..)
  mul_comm a b := Elem.ext (gfMul_comm ..)
  one_mul a := Elem.ext (h.one_gfMul _)
  mul_one a := Elem.ext (h.gfMul_one _)
  zero_mul a := Elem.ext (gfMul_zero_left t a.val)
  mul_zero a := Elem.ext (gfMul_zero_right t a.val)
  left_distrib a b c := Elem.ext (h.gfMul_xor ..)
  right_distrib a b c := Elem.ext (h.xor_gfMul ..)
  exists_pair_ne := ⟨⟨0#8⟩, ⟨0x01#8⟩, fun heq => absurd (congrArg Elem.val heq) (by decide)⟩
  inv_zero := if_pos rfl
  mul_inv_cancel a ha := by
    have hval : a.val ≠ 0#8 := fun h0 => ha (Elem.ext h0)
    exact (congrArg _ (if_neg hval)).trans (Elem.ext (h.gfMul_gfInv hval))

theorem exists_toField {prim : BitVec 9} {t : Tables} (h : t.Logs prim) :
    ∃ (K : Type) (_ : Field K), Nonempty (ToField t K) :=
  ⟨Elem, h.field, ⟨@ToField.mk t Elem h.field Elem.mk (fun _ _ heq => congrArg Elem.val heq) rfl rfl
    (fun _ _ => rfl) fun _ _ => rfl⟩⟩

namespace ToField

variable {prim : BitVec 9} {t : Tables} {K : Type} [Field K] (φ : ToField t K)

theorem map_eq_zero {a : Byte} : φ.map a = 0 ↔ a = 0#8 :=
  φ.map_zero ▸ φ.injective.eq_iff

theorem map_pow (h : t.Logs prim) (a : Byte) (e : Nat) : φ.map (gfPow t a e) = φ.map a ^ e := by
  induction e with
  | zero => rw [h.gfPow_zero, φ.map_one, pow_zero]
  | succ e ih => rw [h.gfPow_succ, φ.map_mul, ih, pow_succ]

theorem map_xorSum (n : Nat) (f : Nat → Byte) : φ.map (xorSum n f) = ∑ i ∈ Finset.range n, φ.map (f i) := by
  induction n with
  | zero => simp [φ.map_zero]
  | succ n ih => rw [xorSum_succ, φ.map_xor, ih, Finset.sum_range_succ]

/-- The value of a polynomial by its powers (R14). -/
theorem map_powerSum (h : t.Logs prim) (n : Nat) (p : Nat → Byte) (x : Byte) :
    φ.map (powerSum t n p x) = ∑ i ∈ Finset.range n, φ.map (p i) * φ.map x ^ i := by
  rw [powerSum, φ.map_xorSum]
  exact Finset.sum_congr rfl fun i _ => by rw [φ.map_mul, φ.map_pow h]

/-- The value of a polynomial by Horner's rule (R14). -/
theorem map_polyEval (p : List Byte) (x : Byte) :
    φ.map (polyEval t p x) = ∑ i ∈ Finset.range p.length, φ.map (rd p i) * φ.map x ^ i := by
  induction p with
  | nil => simp [polyEval, φ.map_zero]
  | cons c p ih =>
    have hstep : polyEval t (c :: p) x = gfMul t (polyEval t p x) x ^^^ c := rfl
    have hrd : ∀ i, rd (c :: p) (i + 1) = rd p i := fun i => rfl
    rw [hstep, φ.map_xor, φ.map_mul, ih, List.length_cons, Finset.sum_range_succ', Finset.sum_mul]
    simp only [hrd, pow_succ, pow_zero, mul_one, mul_assoc]
    rfl

end ToField

/-- Horner's rule gives the value of a polynomial by its powers (R14). -/
theorem Tables.Logs.polyEval_eq_powerSum {prim : BitVec 9} {t : Tables} (h : t.Logs prim) (p : List Byte) (x : Byte) :
    polyEval t p x = powerSum t p.length (rd p) x := by
  obtain ⟨K, _, ⟨φ⟩⟩ := exists_toField h
  exact φ.injective ((φ.map_polyEval p x).trans (φ.map_powerSum h ..).symm)

/-! ### EXP by repeated multiplication of polynomials -/

theorem clmul_two (v : Byte) : clmul v 0x02#8 = v.zeroExtend 16 <<< 1 := by
  simp [clmul, List.range_succ]

/-- A polynomial of degree at most 8 is reduced by at most one subtraction of PRIM, as `xtime` does. -/
theorem polyMod_shift (prim : BitVec 9) (v : Byte) : polyMod prim (v.zeroExtend 16 <<< 1) = xtime prim v := by
  have hhigh : ∀ i, 9 ≤ i → (v.zeroExtend 16 <<< 1).getLsbD i = false := fun i hi => by
    have hv : v.getLsbD (i - 1) = false := BitVec.getLsbD_of_ge _ _ (by omega)
    simp [hv]
  unfold polyMod xtime
  simp only [List.foldl_cons, List.foldl_nil, Nat.reduceAdd, hhigh, Nat.reduceLeDiff, Bool.false_eq_true, if_false]
  apply BitVec.eq_of_getLsbD_eq
  intro i hi
  cases hv : v.getLsbD 7 <;> simp [hv, hi] <;> grind

/-- Multiplication by x modulo PRIM is `xtime` (R151, R152). -/
theorem polyMul_two (prim : BitVec 9) (v : Byte) : polyMul prim v 0x02#8 = xtime prim v := by
  rw [polyMul, clmul_two, polyMod_shift]

theorem polyPow_two (prim : BitVec 9) (i : Nat) : polyPow prim 0x02#8 i = powX prim i := by
  induction i with
  | zero => rfl
  | succ i ih => rw [polyPow, ih, polyMul_two, powX_succ]

/-- Settles O28: the tables of a successful build list the orbit of 1 under `xtime` and its inverse, and the orbit is
all of the nonzero bytes. -/
theorem tablesAreExpAndLog : Obligations.TablesAreExpAndLog := by
  intro prim t htab
  have h := buildTables_logs htab
  refine ⟨h.length_exp, h.length_log, h.exp_last, h.log_zero, fun i hi => ?_, fun v hv => ?_⟩
  · rw [h.exp i hi]
    exact ⟨(polyPow_two prim i).symm, h.lg_powX hi⟩
  · exact ⟨h.lg_lt hv, (h.exp _ (h.lg_lt hv)).trans (h.powX_lg hv)⟩

end Sys2Proof.Machine
end

section
/-! What a command and a block of the decoder can do, said once: one constructor per way to end, with the checks that
passed on that way. The proofs about commands below split along these. -/

open Sys2Proof.Claims

namespace Sys2Proof.Machine

/-! ### The checks of R320 that pass -/

theorem checkInit_eq_none {s : State} : checkInit s = none ↔ s.initDone = true := by
  simp [checkInit]

theorem checkSeq_eq_none {v : Bool} : checkSeq v = none ↔ v = true := by
  simp [checkSeq]

theorem checkDomain_eq_none {z : Bool} : checkDomain z = none ↔ z = false := by
  simp [checkDomain]

theorem checkBlock_eq_none {blk : BitVec 16} {s : State} : checkBlock blk s = none ↔ InRange blk s := by
  unfold checkBlock InRange State.n
  split <;> simp <;> omega

theorem checkBufLen_eq_none {s : State} : checkBufLen s = none ↔ BufLenOk s := by
  unfold checkBufLen BufLenOk State.n
  split
  case isTrue hok => exact iff_of_true rfl hok
  case isFalse hbad => exact iff_of_false nofun hbad

theorem firstFailed_cons_eq_none {c : Option Cause} {cs : List (Option Cause)} :
    firstFailed (c :: cs) = none ↔ c = none ∧ firstFailed cs = none := by
  cases c <;> simp

/-! ### A block of the decoder (R280) -/

/-- The state after the first two stages on a block. -/
abbrev State.located (base : Nat) (s : State) : State := (s.syndBody base).bmBody

/-- The state after the first three stages on a block. -/
abbrev State.searched (base : Nat) (s : State) : State := (s.located base).chienBody

/-- The state after the four stages on a block. -/
abbrev State.evaluated (base : Nat) (s : State) : State := (s.searched base).forneyBody

/-- The working copy with the corrections of the four stages made in it (R280 step 4). -/
def State.repaired (base : Nat) (s : State) : List Byte :=
  patched (s.searched base).posn (s.evaluated base).mag (s.searched base).nroots.toNat (s.blockBytes base)

@[simp] theorem State.length_repaired (base : Nat) (s : State) : (s.repaired base).length = s.n := by
  simp [State.repaired]

/-- The state in which a corrected block is back in BUF (R280 step 6). -/
def State.restored (base : Nat) (s : State) : State :=
  { s.evaluated base with buf := Memory.writeAll (s.evaluated base).buf base (s.repaired base) }

@[simp] theorem State.restored_buf (base : Nat) (s : State) :
    (s.restored base).buf = Memory.writeAll s.buf base (s.repaired base) := by
  simp only [State.restored, State.forneyBody_buf, State.chienBody_buf, State.bmBody_buf, State.syndBody_buf]

@[simp] theorem State.restored_synV (base : Nat) (s : State) : (s.restored base).synV = (s.evaluated base).synV := rfl
@[simp] theorem State.restored_locV (base : Nat) (s : State) : (s.restored base).locV = (s.evaluated base).locV := rfl
@[simp] theorem State.restored_rootV (base : Nat) (s : State) :
    (s.restored base).rootV = (s.evaluated base).rootV := rfl
@[simp] theorem State.restored_magV (base : Nat) (s : State) : (s.restored base).magV = (s.evaluated base).magV := rfl
@[simp] theorem State.restored_synZero (base : Nat) (s : State) :
    (s.restored base).synZero = (s.evaluated base).synZero := rfl
@[simp] theorem State.restored_locL (base : Nat) (s : State) :
    (s.restored base).locL = (s.evaluated base).locL := rfl
@[simp] theorem State.restored_nroots (base : Nat) (s : State) :
    (s.restored base).nroots = (s.evaluated base).nroots := rfl
@[simp] theorem State.restored_bstat (base : Nat) (s : State) :
    (s.restored base).bstat = (s.evaluated base).bstat := rfl

/-- The five ends of decode_block on the block at `base` (R280). -/
inductive BlockRun (base : Nat) (s : State) : BlockEnd → Prop
  | codeword (hzero : syndromesZero s.tab s.fcr s.npar (s.blockBytes base) = true) :
    BlockRun base s { res := .ok, ncorr := 0, st := s.syndBody base }
  | degree (hzero : syndromesZero s.tab s.fcr s.npar (s.blockBytes base) = false)
      (hlen : s.capacity < (s.located base).locL.toNat) :
    BlockRun base s { res := .uncorrDegree, ncorr := 0, st := s.located base }
  | roots (hzero : syndromesZero s.tab s.fcr s.npar (s.blockBytes base) = false)
      (hlen : (s.located base).locL.toNat ≤ s.capacity)
      (hroots : (s.searched base).nroots ≠ (s.located base).locL) :
    BlockRun base s { res := .uncorrRoots, ncorr := 0, st := s.searched base }
  | recheck (hzero : syndromesZero s.tab s.fcr s.npar (s.blockBytes base) = false)
      (hlen : (s.located base).locL.toNat ≤ s.capacity)
      (hroots : (s.searched base).nroots = (s.located base).locL)
      (hcheck : syndromesZero s.tab s.fcr s.npar (s.repaired base) = false) :
    BlockRun base s { res := .uncorrRecheck, ncorr := 0, st := s.evaluated base }
  | corrected (hzero : syndromesZero s.tab s.fcr s.npar (s.blockBytes base) = false)
      (hlen : (s.located base).locL.toNat ≤ s.capacity)
      (hroots : (s.searched base).nroots = (s.located base).locL)
      (hcheck : syndromesZero s.tab s.fcr s.npar (s.repaired base) = true) :
    BlockRun base s { res := .ok, ncorr := (s.searched base).nroots.toNat, st := s.restored base }

/-- Steps 4 to 6 of decode_block, with the terms that FORNEY keeps as they were before it. -/
theorem State.repairBlock_eq (base : Nat) (w : List Byte) (s : State) :
    s.repairBlock base w =
      if syndromesZero s.tab s.fcr s.npar (patched s.posn s.forneyBody.mag s.nroots.toNat w) then
        { res := .ok, ncorr := s.nroots.toNat,
          st := { s.forneyBody with
            buf := Memory.writeAll s.forneyBody.buf base (patched s.posn s.forneyBody.mag s.nroots.toNat w) } }
      else { res := .uncorrRecheck, ncorr := 0, st := s.forneyBody } := rfl

/-- decode_block ends in one of these ways. -/
theorem State.decodeBlock_run (base : Nat) (s : State) : BlockRun base s (s.decodeBlock base) := by
  unfold State.decodeBlock
  simp only []
  split
  case isTrue hzero => exact .codeword hzero
  case isFalse hzero =>
    have hzero := Bool.eq_false_of_not_eq_true hzero
    split
    case isTrue hlen => exact .degree hzero hlen
    case isFalse hlen =>
      have hlen := Nat.le_of_not_lt hlen
      split
      case isTrue hroots => exact .roots hzero hlen hroots
      case isFalse hroots =>
        have hroots := not_not.mp hroots
        rw [State.repairBlock_eq]
        split
        case isTrue hcheck => exact .corrected hzero hlen hroots (by simpa [State.repaired] using hcheck)
        case isFalse hcheck => exact .recheck hzero hlen hroots (by simpa [State.repaired] using hcheck)

/-! ### DECODE.BUF block by block (R282) -/

/-- The state of DECODE.BUF after a block: what the block left, its BSTAT entry written. -/
theorem bufTurn_st (p : BufAcc) (b : Nat) :
    (bufTurn p b).st = (p.st.decodeBlock (b * p.st.n)).st.setBstat b
      (bstatWord (p.st.decodeBlock (b * p.st.n)).res (p.st.decodeBlock (b * p.st.n)).ncorr) := by
  unfold bufTurn
  simp only []
  split <;> rfl

theorem State.decodeBlocks_zero (s : State) :
    s.decodeBlocks 0 =
      { st := { s with bstat := List.replicate s.build.blkMax 0#32 }, tot := 0, nf := 0, nc := 0 } := rfl

theorem State.decodeBlocks_succ (nb : Nat) (s : State) :
    s.decodeBlocks (nb + 1) = bufTurn (s.decodeBlocks nb) nb := by
  simp [State.decodeBlocks, List.range_succ]

/-! ### A command -/

/-- The ways a command can end (R161 to R322), with the checks that passed on each. Of a field command's end only its
frame is said: RESULT holds some byte. -/
inductive Ends : Instr → State → State → Prop
  | rejected (i : Instr) (s : State) (c : Cause) : Ends i s (s.reject c)
  | failedBuild {s : State} (hd : s.initDone = false) : Ends .init s s.failedBuild
  | nop (s : State) : Ends .nop s (s.complete .ok)
  | initAgain {s : State} (hd : s.initDone = true) : Ends .init s (s.complete .ok)
  | init {s : State} {tab : Tables} (hd : s.initDone = false) (hcfg : s.cfgLegal = true)
      (htab : buildTables s.cfgPrim = some tab) : Ends .init s (s.initialised tab)
  | field {i : Instr} {s : State} (v : Byte) (hi : i.format = .g) (hd : s.initDone = true) : Ends i s (s.giveResult v)
  | synd {s : State} {blk : BitVec 16} (hd : s.initDone = true) (hblk : InRange blk s) :
    Ends (.synd blk) s ((s.syndBody (s.blockBase blk)).complete .ok)
  | bm {s : State} (hd : s.initDone = true) (hv : s.synV = true) : Ends .bm s (s.bmBody.complete s.bmBody.bmRes)
  | chien {s : State} (hd : s.initDone = true) (hv : s.locV = true) :
    Ends .chien s (s.chienBody.complete s.chienBody.chienRes)
  | forney {s : State} (hd : s.initDone = true) (hv : s.rootV = true) : Ends .forney s (s.forneyBody.complete .ok)
  | correct {s : State} {blk : BitVec 16} (hd : s.initDone = true) (hv : s.magV = true) (hblk : InRange blk s) :
    Ends (.correct blk) s ((s.correctBody (s.blockBase blk)).complete .ok)
  | decodeBlk {s : State} {blk : BitVec 16} (hd : s.initDone = true) (hblk : InRange blk s) :
    Ends (.decodeBlk blk) s
      (((s.decodeBlock (s.blockBase blk)).record blk).complete (s.decodeBlock (s.blockBase blk)).res)
  | decodeBuf {s : State} (hd : s.initDone = true) (hlen : BufLenOk s) :
    Ends .decodeBuf s (((s.decodeBlocks (s.bufLen.toNat / s.n)).record (s.bufLen.toNat / s.n)).complete
      (if (s.decodeBlocks (s.bufLen.toNat / s.n)).nf = 0 then .ok else .bufFail))

/-- A command with checks ends as it does when all of them pass, or is rejected. -/
theorem Ends.of_commandEnd {i : Instr} {failed : Option Cause} {s ok t : State} (h : commandEnd failed s ok = .next t)
    (hok : failed = none → Ends i s ok) : Ends i s t := by
  obtain ⟨c, -, rfl⟩ | ⟨hf, rfl⟩ := commandEnd_cases h
  · exact .rejected i s c
  · exact hok hf

theorem execInit_ends {s t : State} (h : execInit s = .next t) : Ends .init s t := by
  obtain ⟨hd, rfl⟩ | ⟨-, -, rfl⟩ | ⟨hd, -, -, rfl⟩ | ⟨hd, hcfg, tab, htab, rfl⟩ := execInit_cases h
  · exact .initAgain hd
  · exact .rejected _ s _
  · exact .failedBuild hd
  · exact .init hd hcfg htab

/-- Every command ends in one of these ways. -/
theorem exec_ends {i : Instr} {s t : State} (h : exec i s = .next t) : Ends i s t := by
  cases i with
  | nop =>
    obtain rfl : s.complete .ok = t := Host.Outcome.next.inj h
    exact .nop s
  | init => exact execInit_ends h
  | gfAdd | gfMul | gfPow => exact .of_commandEnd h fun hf => .field _ rfl (checkInit_eq_none.mp hf)
  | gfDiv | gfInv =>
    exact .of_commandEnd h fun hf => .field _ rfl (checkInit_eq_none.mp (firstFailed_cons_eq_none.mp hf).1)
  | synd blk =>
    refine .of_commandEnd h fun hf => ?_
    simp only [firstFailed_cons_eq_none, checkInit_eq_none, checkBlock_eq_none] at hf
    exact .synd hf.1 hf.2.1
  | bm =>
    refine .of_commandEnd h fun hf => ?_
    simp only [firstFailed_cons_eq_none, checkInit_eq_none, checkSeq_eq_none] at hf
    exact .bm hf.1 hf.2.1
  | chien =>
    refine .of_commandEnd h fun hf => ?_
    simp only [firstFailed_cons_eq_none, checkInit_eq_none, checkSeq_eq_none] at hf
    exact .chien hf.1 hf.2.1
  | forney =>
    refine .of_commandEnd h fun hf => ?_
    simp only [firstFailed_cons_eq_none, checkInit_eq_none, checkSeq_eq_none] at hf
    exact .forney hf.1 hf.2.1
  | correct blk =>
    refine .of_commandEnd h fun hf => ?_
    simp only [firstFailed_cons_eq_none, checkInit_eq_none, checkSeq_eq_none, checkBlock_eq_none] at hf
    exact .correct hf.1 hf.2.1 hf.2.2.1
  | decodeBlk blk =>
    refine .of_commandEnd h fun hf => ?_
    simp only [firstFailed_cons_eq_none, checkInit_eq_none, checkBlock_eq_none] at hf
    exact .decodeBlk hf.1 hf.2.1
  | decodeBuf =>
    refine .of_commandEnd h fun hf => ?_
    simp only [firstFailed_cons_eq_none, checkInit_eq_none, checkBufLen_eq_none] at hf
    exact .decodeBuf hf.1 hf.2.1

end Sys2Proof.Machine
end

section
/-! Every step keeps the invariant (10_state.md R45 to R65, R71, R109, 42_locator_bm.md R212).

The parts of `State.Inv` that speak of one field each are kept field by field; the two that need an argument are the
locator's degree, by a loop invariant of Berlekamp-Massey (`BmAcc.Bounded`), and BUF's bound, from the position of a
block in BUF. -/

open Sys2Proof.Claims

namespace Sys2Proof.Machine

/-! ### The loop invariant of Berlekamp-Massey (R212) -/

/-- Before iteration r: L ≤ r, Λ has constant term 1 and degree at most L, and `x^shift · B` has degree at most
r + 1 - L. -/
structure BmAcc.Bounded (r : Nat) (p : BmAcc) : Prop where
  len_le : p.len ≤ r
  shift_pos : 1 ≤ p.shift
  lam_one : rd p.lam 0 = 0x01#8
  lam_deg : ∀ k, p.len < k → rd p.lam k = 0#8
  old_deg : ∀ k, r + 1 < k + p.shift + p.len → rd p.old k = 0#8

theorem BmAcc.start_bounded (npar : Nat) : (BmAcc.start npar).Bounded 0 where
  len_le := Nat.le_refl 0
  shift_pos := Nat.le_refl 1
  lam_one := by simp [BmAcc.start, rd_fill]
  lam_deg k hk := by
    simp only [BmAcc.start] at hk
    simp [BmAcc.start, rd_fill, show k ≠ 0 by omega]
  old_deg k hk := by
    simp only [BmAcc.start] at hk
    simp [BmAcc.start, rd_fill, show k ≠ 0 by omega]

/-- `Λ ⊕ c·x^m·B` keeps the constant term. -/
theorem rd_bmUpdate_zero {r : Nat} {p : BmAcc} (t : Tables) (npar : Nat) (c : Byte) (h : p.Bounded r) :
    rd (bmUpdate t npar p c) 0 = 0x01#8 := by
  have hshift := h.shift_pos
  simp [bmUpdate, rd_fill, show ¬ p.shift = 0 by omega, h.lam_one]

/-- `Λ ⊕ c·x^m·B` has no term above the degrees of its two parts. -/
theorem rd_bmUpdate_above {r : Nat} {p : BmAcc} (t : Tables) (npar : Nat) (c : Byte) (h : p.Bounded r) {k : Nat}
    (hlen : p.len < k) (hr : r + 1 < k + p.len) : rd (bmUpdate t npar p c) k = 0#8 := by
  have hold : p.shift ≤ k → rd p.old (k - p.shift) = 0#8 := fun hs => h.old_deg _ (by omega)
  rw [bmUpdate, rd_fill]
  split
  · split
    case isTrue hs => simp [h.lam_deg k hlen, hold hs]
    case isFalse => exact h.lam_deg k hlen
  · rfl

theorem bmTurn_bounded {r : Nat} {p : BmAcc} (t : Tables) (npar : Nat) (syn : List Byte) (h : p.Bounded r) :
    (bmTurn t npar syn p r).Bounded (r + 1) := by
  have hlen := h.len_le
  unfold bmTurn
  simp only []
  split
  · exact { h with
      len_le := Nat.le_succ_of_le hlen
      shift_pos := Nat.le_add_left 1 _
      old_deg := fun k hk => h.old_deg k (by simp only at hk; omega) }
  · split
    · exact {
        len_le := by simp only; omega
        shift_pos := Nat.le_refl 1
        lam_one := rd_bmUpdate_zero t npar _ h
        lam_deg := fun k hk => rd_bmUpdate_above t npar _ h (by simp only at hk; omega) (by simp only at hk; omega)
        old_deg := fun k hk => h.lam_deg k (by simp only at hk; omega) }
    · exact {
        len_le := by simp only; omega
        shift_pos := Nat.le_add_left 1 _
        lam_one := rd_bmUpdate_zero t npar _ h
        lam_deg := fun k hk => rd_bmUpdate_above t npar _ h hk (by simp only at hk; omega)
        old_deg := fun k hk => h.old_deg k (by simp only at hk ⊢; omega) }

theorem bmAfter_bounded (t : Tables) (npar : Nat) (syn : List Byte) (r : Nat) :
    (bmAfter t npar syn r).Bounded r := by
  induction r with
  | zero => exact BmAcc.start_bounded npar
  | succ r ih => exact bmAfter_succ t npar syn r ▸ bmTurn_bounded t npar syn ih

theorem bm_bounded (t : Tables) (npar : Nat) (syn : List Byte) : (bm t npar syn).Bounded npar :=
  bmAfter_bounded t npar syn npar

/-- LOC_L after BM is L: it fits its register. -/
theorem State.bmBody_locL_toNat (s : State) : s.bmBody.locL.toNat = (bm s.tab s.npar s.syn).len := by
  have hlen := (bm_bounded s.tab s.npar s.syn).len_le
  have hnpar : s.npar < 256 := s.cfgNpar.isLt
  exact BitVec.toNat_ofNat .. |>.trans (Nat.mod_eq_of_lt (by omega))

theorem State.bmBody_locL_le (s : State) : s.bmBody.locL.toNat ≤ s.npar :=
  s.bmBody_locL_toNat ▸ (bm_bounded s.tab s.npar s.syn).len_le

theorem State.bmBody_lam_zero (s : State) : rd s.bmBody.lam 0 = 0x01#8 := by
  rw [State.bmBody_lam, rd_fillUsed, if_pos ⟨Nat.succ_pos _, Nat.succ_pos _⟩]
  exact (bm_bounded s.tab s.npar s.syn).lam_one

theorem State.bmBody_lam_above (s : State) {i : Nat} (hi : s.bmBody.locL.toNat < i) : rd s.bmBody.lam i = 0#8 := by
  rw [State.bmBody_lam, rd_fillUsed]
  split
  · exact (bm_bounded s.tab s.npar s.syn).lam_deg i (s.bmBody_locL_toNat ▸ hi)
  · rfl

/-! ### The entries of the Chien search (R231, R232) -/

theorem mem_chien {t : Tables} {lam : List Byte} {p : Nat} :
    p ∈ chien t lam ↔ p < 255 ∧ polyEval t lam (t.alphaNeg p) = 0#8 := by
  simp [chien]

/-- An entry of a Chien search, or 0 where there is none, is below 255. -/
theorem chien_getD_lt (t : Tables) (lam : List Byte) (k : Nat) : (chien t lam).getD k 0 < 255 := by
  by_cases hk : k < (chien t lam).length
  · rw [List.getD_eq_getElem _ _ hk]
    exact (mem_chien.mp (List.getElem_mem hk)).1
  · rw [List.getD_eq_default _ _ (Nat.le_of_not_lt hk)]
    decide

/-- The byte index of a position is that number: it lies in the block, so it fits a byte. -/
theorem toNat_posnOf {n : Nat} (hn : n < 256) (p : Nat) : (posnOf n p).toNat = n - 1 - p % n :=
  BitVec.toNat_ofNat .. |>.trans (Nat.mod_eq_of_lt (by omega))

theorem State.chienBody_posn_lt (s : State) (hn : 1 ≤ s.n) (k : Nat) : (rd s.chienBody.posn k).toNat < s.n := by
  have hn' : s.n < 256 := s.cfgN.isLt
  rw [State.chienBody, rd_fillUsed]
  split
  · rw [toNat_posnOf hn']
    omega
  · exact hn

theorem State.chienBody_root_lt (s : State) (k : Nat) : (rd s.chienBody.root k).toNat < 255 := by
  rw [State.chienBody, rd_fillUsed]
  split
  · have hp := chien_getD_lt s.tab (s.lam.take (s.npar + 1)) k
    rw [BitVec.toNat_ofNat, Nat.mod_eq_of_lt (by omega)]
    exact hp
  · decide

/-! ### The parts of the invariant -/

/-- What INIT leaves is a part of the setup. -/
theorem State.Ready.of_setup_eq {s t : State} (hset : t.setup = s.setup) (h : s.Ready) : t.Ready := by
  obtain ⟨hbuild, -, hn, hnpar, hprim, hfcr, htab, hgen⟩ := State.setup_eq_iff.mp hset
  have hlegal : t.cfgLegal = s.cfgLegal := by
    unfold State.cfgLegal State.n State.npar
    rw [hbuild, hn, hnpar]
  refine ⟨hlegal.trans h.cfg, by rw [hprim, htab, h.tab], ?_⟩
  rw [hgen, htab, hbuild, h.gen]
  unfold State.npar State.fcr
  rw [hnpar, hfcr]

theorem State.Inv.n_pos {s : State} (h : s.Inv) (hd : s.initDone = true) : 1 ≤ s.n := by
  have hcfg := (h.ready hd).cfg
  simp only [State.cfgLegal, Bool.and_eq_true, decide_eq_true_eq] at hcfg
  exact hcfg.1.1.1.1.1

theorem State.Inv.npar_le {s : State} (h : s.Inv) (hd : s.initDone = true) : s.npar ≤ s.build.nparMax := by
  have hcfg := (h.ready hd).cfg
  simp only [State.cfgLegal, Bool.and_eq_true, decide_eq_true_eq] at hcfg
  exact hcfg.1.2

/-- The invariant does not speak of the host's coming events, the model's own counters, the control registers or the
interrupt. -/
theorem State.Inv.of_control {s : State} (h : s.Inv) {pending latencies draws rdata cmd running res err intStat intEn
    bufLen} :
    State.Inv { s with
      pending := pending, latencies := latencies, draws := draws, rdata := rdata, cmd := cmd, running := running,
      res := res, err := err, intStat := intStat, intEn := intEn, bufLen := bufLen } :=
  { h with
    sized := { h.sized with }
    ready := fun hd => .of_setup_eq (s := s) rfl (h.ready hd)
    untouched := fun hd => { h.untouched hd with } }

/-! ### What each write keeps -/

/-- With INIT done the clause about the time before it says nothing. -/
theorem State.untouched_of_done {s : State} (hd : s.initDone = true) : s.initDone = false → s.Untouched := fun hd' =>
  absurd (hd.symm.trans hd') nofun

/-- A write to BUF that keeps its form keeps the invariant. -/
theorem State.Inv.of_buf {s : State} (h : s.Inv) {m : Memory} (hwf : Memory.wf m = true)
    (hbelow : Memory.below s.build.bufBytes m = true) : State.Inv { s with buf := m } :=
  { h with
    bufWf := hwf
    bufBelow := hbelow
    sized := { h.sized with }
    ready := fun hd => .of_setup_eq (s := s) rfl (h.ready hd)
    untouched := fun hd => { h.untouched hd with } }

/-- The result registers of a command are free once INIT is done. -/
theorem State.Inv.of_results {s : State} (h : s.Inv) (hd : s.initDone = true) {result ncorr totalCorr nfail nblk} :
    State.Inv { s with
      result := result, ncorr := ncorr, totalCorr := totalCorr, nfail := nfail, nblk := nblk } :=
  { h with
    sized := { h.sized with }
    ready := fun hd => .of_setup_eq (s := s) rfl (h.ready hd)
    untouched := untouched_of_done hd }

theorem State.Inv.of_bstat {s : State} (h : s.Inv) {bstat : List Word} (hlen : bstat.length = s.build.blkMax)
    (hlayout : ∀ v ∈ bstat, v &&& ~~~Machine.bstatLayout = 0#32) : State.Inv { s with bstat := bstat } :=
  { h with
    sized := { h.sized with bstat := hlen }
    bstatLayout := hlayout
    ready := fun hd => .of_setup_eq (s := s) rfl (h.ready hd)
    untouched := fun hd => { h.untouched hd with } }

theorem State.Inv.complete {s : State} (h : s.Inv) (r : Res) : (s.complete r).Inv := h.of_control

theorem State.Inv.raiseErr {s : State} (h : s.Inv) (c : Cause) : (s.raiseErr c).Inv := h.of_control

theorem State.Inv.reject {s : State} (h : s.Inv) (c : Cause) : (s.reject c).Inv := h.of_control

/-! ### The stages -/

theorem State.Inv.syndBody {s : State} (h : s.Inv) (hd : s.initDone = true) (base : Nat) : (s.syndBody base).Inv :=
  { h with
    sized := { h.sized with syn := length_fillUsed .. }
    ready := fun _ => .of_setup_eq (s.syndBody_setup base) (h.ready hd)
    untouched := untouched_of_done hd
    locChain := nofun
    rootChain := nofun
    magChain := nofun
    lamOne := nofun
    lamDeg := nofun
    posnLt := nofun
    rootLt := nofun }

theorem State.Inv.bmBody {s : State} (h : s.Inv) (hd : s.initDone = true) (hsyn : s.synV = true) : s.bmBody.Inv :=
  { h with
    sized := { h.sized with lam := length_fillUsed .. }
    ready := fun _ => .of_setup_eq s.bmBody_setup (h.ready hd)
    untouched := untouched_of_done hd
    locChain := fun _ => hsyn
    rootChain := nofun
    magChain := nofun
    lamOne := fun _ => s.bmBody_lam_zero
    lamDeg := fun _ _ hi => s.bmBody_lam_above hi
    locLe := fun _ => s.bmBody_locL_le
    posnLt := nofun
    rootLt := nofun }

theorem State.Inv.chienBody {s : State} (h : s.Inv) (hd : s.initDone = true) (hloc : s.locV = true) :
    s.chienBody.Inv :=
  { h with
    sized := { h.sized with root := length_fillUsed .., posn := length_fillUsed .. }
    ready := fun _ => .of_setup_eq s.chienBody_setup (h.ready hd)
    untouched := untouched_of_done hd
    rootChain := fun _ => hloc
    magChain := nofun
    posnLt := fun _ => s.chienBody_posn_lt (h.n_pos hd)
    rootLt := fun _ => s.chienBody_root_lt }

theorem State.Inv.forneyBody {s : State} (h : s.Inv) (hd : s.initDone = true) (hroot : s.rootV = true) :
    s.forneyBody.Inv :=
  { h with
    sized := { h.sized with mag := length_fillUsed .., omega := length_fillUsed .. }
    ready := fun _ => .of_setup_eq s.forneyBody_setup (h.ready hd)
    untouched := untouched_of_done hd
    magChain := fun _ => hroot }

/-! ### CORRECT -/

theorem correctAll_succ (posn mag : List Byte) (base n : Nat) (m : Memory) :
    correctAll posn mag base (n + 1) m = correctTurn posn mag base (correctAll posn mag base n m) n := by
  simp [correctAll, List.range_succ]

theorem wf_correctAll (posn mag : List Byte) (base n : Nat) {m : Memory} (h : Memory.wf m = true) :
    Memory.wf (correctAll posn mag base n m) = true := by
  induction n with
  | zero => exact h
  | succ n ih =>
    rw [correctAll_succ]
    exact Memory.wf_write _ _ ih

theorem below_correctAll {size base : Nat} {posn : List Byte} (hposn : ∀ k, base + (rd posn k).toNat < size)
    (mag : List Byte) (n : Nat) {m : Memory} (h : Memory.below size m = true) :
    Memory.below size (correctAll posn mag base n m) = true := by
  induction n with
  | zero => exact h
  | succ n ih =>
    rw [correctAll_succ]
    exact Memory.below_write _ (hposn n) ih

/-- A block in range ends inside BUF (R96). -/
theorem blockBase_add_le {s : State} {blk : BitVec 16} (hblk : InRange blk s) :
    s.blockBase blk + s.n ≤ s.build.bufBytes := by
  have hend := hblk.2
  rwa [Nat.succ_mul] at hend

theorem State.Inv.correctBody {s : State} (h : s.Inv) (hd : s.initDone = true) (hmag : s.magV = true) {base : Nat}
    (hbase : base + s.n ≤ s.build.bufBytes) : (s.correctBody base).Inv := by
  have hposn := h.posnLt (h.magChain hmag)
  refine State.Inv.of_results (h.of_buf (wf_correctAll _ _ _ _ h.bufWf) (below_correctAll ?_ _ _ h.bufBelow)) hd
  exact fun k => Nat.lt_of_lt_of_le (Nat.add_lt_add_left (hposn k) base) hbase

/-! ### The block decoder -/

theorem State.Inv.located {s : State} (h : s.Inv) (hd : s.initDone = true) (base : Nat) : (s.located base).Inv :=
  (h.syndBody hd base).bmBody hd rfl

theorem State.Inv.searched {s : State} (h : s.Inv) (hd : s.initDone = true) (base : Nat) : (s.searched base).Inv :=
  (h.located hd base).chienBody (by simpa using hd) (State.bmBody_locV _)

theorem State.Inv.evaluated {s : State} (h : s.Inv) (hd : s.initDone = true) (base : Nat) : (s.evaluated base).Inv :=
  (h.searched hd base).forneyBody (by simpa using hd) (State.chienBody_rootV _)

theorem State.Inv.restored {s : State} (h : s.Inv) (hd : s.initDone = true) {base : Nat}
    (hbase : base + s.n ≤ s.build.bufBytes) : (s.restored base).Inv := by
  have heval := h.evaluated hd base
  refine heval.of_buf (Memory.wf_writeAll _ base heval.bufWf) (Memory.below_writeAll _ base ?_ heval.bufBelow)
  simpa using hbase

theorem State.Inv.blockRun {s : State} (h : s.Inv) (hd : s.initDone = true) {base : Nat}
    (hbase : base + s.n ≤ s.build.bufBytes) {e : BlockEnd} (hrun : BlockRun base s e) : e.st.Inv := by
  cases hrun with
  | codeword => exact h.syndBody hd base
  | degree => exact h.located hd base
  | roots => exact h.searched hd base
  | recheck => exact h.evaluated hd base
  | corrected => exact h.restored hd hbase

/-- The reserved bits of an entry that DECODE writes are 0 (R64). -/
theorem bstatWord_layout (r : Res) (nc : Nat) : bstatWord r nc &&& ~~~bstatLayout = 0#32 := by
  apply BitVec.eq_of_getLsbD_eq
  intro i hi
  unfold bstatWord
  simp only [BitVec.getLsbD_and, BitVec.getLsbD_append]
  interval_cases i <;> simp [bstatLayout]

theorem State.Inv.setBstat {s : State} (h : s.Inv) (b : Nat) (r : Res) (nc : Nat) :
    (s.setBstat b (bstatWord r nc)).Inv := by
  refine h.of_bstat (List.length_set.trans h.sized.bstat) fun v hv => ?_
  obtain hold | rfl := List.mem_or_eq_of_mem_set hv
  · exact h.bstatLayout v hold
  · exact bstatWord_layout r nc

theorem State.n_of_setup_eq {s t : State} (h : t.setup = s.setup) : t.n = s.n :=
  congrArg (fun u : Setup => u.cfgN.toNat) h

theorem State.Inv.bufTurn {p : BufAcc} (h : p.st.Inv) (hd : p.st.initDone = true) {b : Nat}
    (hb : (b + 1) * p.st.n ≤ p.st.build.bufBytes) : (bufTurn p b).st.Inv := by
  rw [bufTurn_st]
  exact (h.blockRun hd (by rwa [Nat.succ_mul] at hb) (p.st.decodeBlock_run _)).setBstat ..

theorem State.Inv.decodeBlocks {s : State} (h : s.Inv) (hd : s.initDone = true) {nb : Nat}
    (hnb : nb * s.n ≤ s.build.bufBytes) : (s.decodeBlocks nb).st.Inv := by
  induction nb with
  | zero =>
    refine h.of_bstat List.length_replicate fun v hv => ?_
    rw [List.eq_of_mem_replicate hv]
    rfl
  | succ nb ih =>
    have hset := s.decodeBlocks_setup nb
    rw [State.decodeBlocks_succ]
    refine State.Inv.bufTurn (ih ?_) ((congrArg Setup.initDone hset).trans hd) ?_
    · exact Nat.le_trans (Nat.mul_le_mul_right _ (Nat.le_succ nb)) hnb
    · rw [State.n_of_setup_eq hset, show (s.decodeBlocks nb).st.build = s.build from congrArg Setup.build hset]
      exact hnb

/-! ### INIT -/

theorem State.Inv.failedBuild {s : State} (h : s.Inv) (hd : s.initDone = false) : s.failedBuild.Inv :=
  { h with
    sized := { h.sized with exp := length_freeArray .., log := length_freeArray .. }
    ready := fun hd' => absurd (hd.symm.trans hd') nofun
    untouched := fun _ => { h.untouched hd with } }

theorem State.Inv.initialised {s : State} (h : s.Inv) (hd : s.initDone = false) (hcfg : s.cfgLegal = true)
    {tab : Tables} (htab : buildTables s.cfgPrim = some tab) : (s.initialised tab).Inv :=
  have hlogs := buildTables_logs htab
  { h with
    sized := { h.sized with
      exp := hlogs.length_exp
      log := hlogs.length_log
      gen := length_buildGenerator .. }
    ready := fun _ => { cfg := hcfg, tab := htab, gen := rfl }
    untouched := nofun
    locLe := fun _ => (h.untouched hd).locL ▸ Nat.zero_le _ }

/-! ### Commands, the host and reset -/

theorem State.Inv.ends {i : Instr} {s t : State} (h : s.Inv) (he : Ends i s t) : t.Inv := by
  cases he with
  | rejected _ _ c => exact h.reject c
  | failedBuild hd => exact h.failedBuild hd
  | nop => exact h.complete .ok
  | initAgain => exact h.complete .ok
  | init hd hcfg htab => exact h.initialised hd hcfg htab
  | field v _ hd => exact (State.Inv.of_results h hd).complete .ok
  | synd hd => exact (h.syndBody hd _).complete .ok
  | bm hd hv => exact (h.bmBody hd hv).complete _
  | chien hd hv => exact (h.chienBody hd hv).complete _
  | forney hd hv => exact (h.forneyBody hd hv).complete .ok
  | correct hd hv hblk => exact (h.correctBody hd hv (blockBase_add_le hblk)).complete .ok
  | @decodeBlk _ blk hd hblk =>
    have hend := h.blockRun hd (blockBase_add_le hblk) (s.decodeBlock_run _)
    have hset := s.decodeBlock_setup (s.blockBase blk)
    exact (State.Inv.of_results (hend.setBstat ..) ((congrArg Setup.initDone hset).trans hd)).complete _
  | decodeBuf hd hlen =>
    have hnb : s.bufLen.toNat / s.n * s.n ≤ s.build.bufBytes := (Nat.div_mul_le_self ..).trans hlen.1
    have hd' : (s.decodeBlocks (s.bufLen.toNat / s.n)).st.initDone = true :=
      (congrArg Setup.initDone (s.decodeBlocks_setup _)).trans hd
    exact (State.Inv.of_results (h.decodeBlocks hd hnb) hd').complete _

theorem State.Inv.hostRead {s : State} (h : s.Inv) (addr : Addr) (size : Size) : (s.hostRead addr size).Inv :=
  hostRead_frame addr size s ▸ h.of_control

/-- A CFG_* write is stored only before INIT, when the invariant says nothing of the configuration (R45). -/
theorem State.Inv.writeCfg {s : State} (h : s.Inv) {cfgN cfgNpar cfgPrim cfgFcr} :
    (s.writeCfg { s with cfgN := cfgN, cfgNpar := cfgNpar, cfgPrim := cfgPrim, cfgFcr := cfgFcr }).Inv := by
  unfold State.writeCfg
  split
  case isTrue => exact h.raiseErr .locked
  case isFalse hd =>
    have hd := Bool.eq_false_of_not_eq_true hd
    have hroot : s.rootV = false := by
      cases hv : s.rootV
      · rfl
      · exact absurd (h.locChain (h.rootChain hv)) (by simp [(h.untouched hd).synV])
    exact { h with
      sized := { h.sized with }
      ready := fun hd' => absurd (hd.symm.trans hd') nofun
      untouched := fun hd => { h.untouched hd with }
      locLe := fun hd' => absurd (hd.symm.trans hd') nofun
      posnLt := fun hv => absurd (hroot.symm.trans hv) nofun }

/-- What a location of BUF is: a word inside BUF_BYTES, which is a multiple of 4 (R9, R32). -/
theorem locate_bufWord {b : Build} {addr : Addr} {k : Nat} (hloc : locate b addr = .bufWord k) :
    k < b.bufBytes ∧ addr.toNat = 0x4000 + k := by
  unfold locate at hloc
  simp only [] at hloc
  split at hloc
  · unfold locateReg at hloc
    split at hloc <;> exact absurd hloc nofun
  · split at hloc
    · unfold locateWindow at hloc
      split at hloc <;> exact absurd hloc nofun
    · split at hloc
      · obtain rfl := Loc.bufWord.inj hloc
        omega
      · exact absurd hloc nofun

theorem State.Inv.writeIdle {s : State} (h : s.Inv) {addr : Addr} (ha : addr.toNat % 4 = 0) (v : Word) :
    (s.writeIdle (locate s.build addr) v).Inv := by
  cases hloc : locate s.build addr with
  | cmd | err | intStat | intEn | bufLen => exact h.of_control
  | cfgN | cfgNpar | cfgPrim | cfgFcr => exact h.writeCfg
  | bufWord k =>
    obtain ⟨hk, hak⟩ := locate_bufWord hloc
    have hlegal := h.build
    simp only [Build.legal, Bool.and_eq_true, beq_iff_eq] at hlegal
    have hmod : s.build.bufBytes % 4 = 0 := hlegal.1.1.1.1
    exact h.of_buf (wf_bufWriteWord k v h.bufWf) (below_bufWriteWord k v (by omega) h.bufBelow)
  | _ => exact h

theorem State.Inv.writeBusy {s : State} (h : s.Inv) (loc : Loc) (v : Word) : (s.writeBusy loc v).Inv := by
  cases loc with
  | cmd | cfgN | cfgNpar | cfgPrim | cfgFcr | bufLen | bufWord => exact h.raiseErr .busyWr
  | err | intStat | intEn => exact h.of_control
  | _ => exact h

theorem State.Inv.hostWrite {s : State} (h : s.Inv) (addr : Addr) (size : Size) (v : Word) :
    (s.hostWrite addr size v).Inv := by
  simp only [State.hostWrite]
  split
  case isTrue hs =>
    simp only [supported, Bool.and_eq_true, beq_iff_eq] at hs
    split
    · exact h.writeBusy _ v
    · exact h.writeIdle hs.2 v
  case isFalse => exact h.raiseErr .bus

theorem State.Inv.hostEvent {s : State} (h : s.Inv) (e : HostEvent) : (s.hostEvent e).Inv := by
  cases e with
  | idle | rst => exact h
  | read addr size => exact h.hostRead addr size
  | write addr size v => exact h.hostWrite addr size v
  | poll => exact h.hostRead statusAddr .word

theorem State.Inv.afterHost {s : State} (h : s.Inv) : s.afterHost.Inv := by
  have hpop : ∀ (rest : List HostEvent) e, (State.hostEvent e { s with pending := rest }).Inv := fun rest e =>
    State.Inv.hostEvent (h.of_control) e
  unfold State.afterHost
  split
  · exact h
  · exact hpop _ _
  · exact hpop _ _

theorem State.Inv.engineCycle {s t : State} (h : s.Inv) {was : Option Nat} (hc : engineCycle was s = .next t) :
    t.Inv := by
  obtain ⟨-, rfl⟩ | ⟨-, hrun⟩ | ⟨k, -, rfl⟩ := engineCycle_cases hc
  · exact h
  · obtain ⟨i, -, hexec⟩ | ⟨e, -, rfl⟩ := runCommand_cases hrun
    · exact h.ends (exec_ends hexec)
    · exact h.reject .illegal
  · exact h.of_control

/-- Masked with the layout, a word has no reserved bit (R64). -/
theorem and_bstatLayout (v : Word) : v &&& bstatLayout &&& ~~~bstatLayout = 0#32 := by
  have hmask : bstatLayout &&& ~~~bstatLayout = 0#32 := by decide
  rw [BitVec.and_assoc, hmask, BitVec.and_zero]

/-- Reset leaves the invariant of the build alone: arrays of their sizes, nothing valid, no result (R72, R350). -/
theorem State.Inv.afterRst {s : State} (h : s.Inv) (rest : List HostEvent) : (s.afterRst rest).Inv where
  build := h.build
  bufWf := Memory.wf_ofFn ..
  bufBelow := Memory.below_ofFn ..
  sized := {
    syn := length_freeArray ..
    lam := length_freeArray ..
    omega := length_freeArray ..
    gen := length_freeArray ..
    root := length_freeArray ..
    posn := length_freeArray ..
    mag := length_freeArray ..
    exp := length_freeArray ..
    log := length_freeArray ..
    bstat := by simp [State.afterRst] }
  bstatLayout v hv := by
    obtain ⟨b, -, rfl⟩ := List.mem_map.mp hv
    exact and_bstatLayout _
  ready := nofun
  untouched _ := ⟨rfl, rfl, rfl, rfl, rfl, rfl, rfl, rfl, rfl⟩
  locChain := nofun
  rootChain := nofun
  magChain := nofun
  lamOne := nofun
  lamDeg := nofun
  locLe := nofun
  posnLt := nofun
  rootLt := nofun

/-- Settles O26: reset establishes the invariant anew; in any other cycle the host's event keeps it, and so does the
command engine after it, command by command. -/
theorem stepKeepsInv : Obligations.StepKeepsInv := by
  intro s t h hstep
  obtain ⟨rest, -, hrst⟩ | ⟨-, hcycle⟩ := step_cases s
  · obtain rfl : s.afterRst rest = t := Host.Outcome.next.inj (hrst ▸ hstep)
    exact h.afterRst rest
  · exact h.afterHost.engineCycle (hcycle ▸ hstep)

end Sys2Proof.Machine
end

section
/-! What the ends of commands share: the flags (10_state.md R38, R103), the result codes (R36), the valid bits (R71) and
the frames (R73, R108). -/

open Sys2Proof.Claims

namespace Sys2Proof.Machine

/-! ### Flags and result codes -/

theorem State.complete_done (r : Res) (s : State) : (s.complete r).intStat.getLsbD 0 = true := by
  simp [intDone]

theorem State.reject_erri (c : Cause) (s : State) : (s.reject c).intStat.getLsbD 1 = true := by
  simp [intErri]

/-- Every end is a `complete`, which sets DONE (R321, R322). -/
theorem Ends.done {i : Instr} {s t : State} (he : Ends i s t) : t.intStat.getLsbD 0 = true := by
  cases he with
  | failedBuild => exact State.complete_done .rejected _
  | _ => exact State.complete_done ..

/-- A command's end at its completion point sets DONE, that of an illegal word too. -/
theorem runCommand_done {s t : State} (h : runCommand s = .next t) : t.intStat.getLsbD 0 = true := by
  obtain ⟨i, -, hexec⟩ | ⟨e, -, rfl⟩ := runCommand_cases h
  · exact (exec_ends hexec).done
  · exact State.complete_done ..

/-- Settles O10: BUSY falls only at a completion point. -/
theorem doneWhenBusyFalls : Obligations.DoneWhenBusyFalls := by
  intro s t hrst h hbusy hidle
  obtain ⟨rest, hpending, -⟩ | ⟨-, hstep⟩ := step_cases s
  · exact absurd hpending (hrst rest)
  · obtain ⟨hwas, -⟩ | ⟨-, hrun⟩ | ⟨k, -, rfl⟩ := engineCycle_cases (hstep ▸ h)
    · simp [State.busy, hwas] at hbusy
    · exact runCommand_done hrun
    · exact absurd hidle nofun

theorem BlockRun.res_mem {base : Nat} {s : State} {e : BlockEnd} (hrun : BlockRun base s e) :
    e.res ∈ [.ok, .uncorrDegree, .uncorrRoots, .uncorrRecheck] := by
  cases hrun <;> simp

theorem State.bmRes_mem (s : State) : s.bmRes ∈ [.ok, .uncorrDegree] := by
  unfold State.bmRes
  split <;> simp

theorem State.chienRes_mem (s : State) : s.chienRes ∈ [.ok, .uncorrRoots] := by
  unfold State.chienRes
  split <;> simp

/-- The result code of DECODE.BUF. -/
theorem BufAcc.res_mem (p : BufAcc) : (if p.nf = 0 then Res.ok else Res.bufFail) ∈ [.ok, .bufFail] := by
  split <;> simp

/-- A command whose result is REJECTED was rejected, or is INIT with a failed build. -/
theorem Ends.of_rejected {i : Instr} {s t : State} (he : Ends i s t) (hres : t.res = .rejected) :
    (∃ c, t = s.reject c) ∨ t = s.failedBuild := by
  have hne : ∀ {l : List Res} {r : Res}, r ∈ l → Res.rejected ∉ l → r ≠ .rejected := fun hr hl heq => hl (heq ▸ hr)
  cases he with
  | rejected _ _ c => exact .inl ⟨c, rfl⟩
  | failedBuild => exact .inr rfl
  | bm => exact absurd hres (hne (State.bmRes_mem _) (by decide))
  | chien => exact absurd hres (hne (State.chienRes_mem _) (by decide))
  | decodeBlk => exact absurd hres (hne (State.decodeBlock_run _ s).res_mem (by decide))
  | decodeBuf => exact absurd hres (hne (BufAcc.res_mem _) (by decide))
  | _ => exact absurd hres nofun

/-- Settles O14: each end has a fixed code, apart from BM, CHIEN, DECODE.BLK and DECODE.BUF, whose codes are those of
the function that gives them. -/
theorem resultCodesPerCommand : Obligations.ResultCodesPerCommand := by
  refine ⟨fun r => by cases r <;> decide, fun i s t h => ?_⟩
  have hsub : ∀ {l l' : List Res} {r : Res}, r ∈ l → l ⊆ l' → r ∈ l' := fun hr hl => hl hr
  cases exec_ends h with
  | rejected i s c => cases i <;> simp
  | bm => exact hsub (State.bmRes_mem _) (by decide)
  | chien => exact hsub (State.chienRes_mem _) (by decide)
  | decodeBlk => exact hsub (State.decodeBlock_run _ s).res_mem (by decide)
  | decodeBuf => exact hsub (BufAcc.res_mem _) (by decide)
  | field v hi =>
    cases i with
    | gfAdd | gfMul | gfDiv | gfInv | gfPow => exact List.mem_cons_self
    | _ => exact absurd hi nofun
  | nop | initAgain | init | synd | forney | correct => exact List.mem_cons_self
  | failedBuild => exact List.mem_cons_of_mem _ List.mem_cons_self

/-! ### The valid bits (R71) -/

/-- The valid bits chain: SYN_V is set, and no bit is set whose predecessor is not. -/
def Chained (s : State) : Prop := s.synV = true ∧ (s.locV = true ∨ s.rootV = false) ∧ (s.rootV = true ∨ s.magV = false)

theorem BlockRun.chained {base : Nat} {s : State} {e : BlockEnd} (hrun : BlockRun base s e) : Chained e.st := by
  cases hrun <;> simp [Chained]

/-- What a block leaves in the valid bits, as far as its stages ran (R71, R280). -/
theorem BlockRun.validBits {base : Nat} {s : State} {e : BlockEnd} (hrun : BlockRun base s e) :
    (e.st.synZero = true → validBits e.st = (true, false, false, false)) ∧
    (e.res = .uncorrDegree → validBits e.st = (true, true, false, false)) ∧
    (e.res = .uncorrRoots → validBits e.st = (true, true, true, false)) ∧
    (e.st.synZero = false → (e.res = .ok ∨ e.res = .uncorrRecheck) → validBits e.st = (true, true, true, true)) := by
  cases hrun with
  | codeword hzero => simp [Claims.validBits, hzero]
  | degree hzero => simp [Claims.validBits, hzero]
  | roots hzero => simp [Claims.validBits, hzero]
  | recheck hzero | corrected hzero => simp [Claims.validBits, hzero]

theorem State.decodeBlocks_chained {nb : Nat} (hnb : nb ≠ 0) (s : State) : Chained (s.decodeBlocks nb).st := by
  obtain ⟨k, rfl⟩ := Nat.exists_eq_succ_of_ne_zero hnb
  rw [Nat.succ_eq_add_one, State.decodeBlocks_succ, bufTurn_st]
  exact (State.decodeBlock_run ..).chained

/-- Settles O23, end by end; for DECODE.BLK by the end of its block. -/
theorem validBitChain : Obligations.ValidBitChain := by
  refine ⟨fun s t rest hpending h => ?_, fun i s t h => ⟨fun hres => ?_, fun hres => ?_⟩⟩
  · obtain ⟨rest', -, hstep⟩ | ⟨hrst, -⟩ := step_cases s
    · obtain rfl : s.afterRst rest' = t := Host.Outcome.next.inj (hstep ▸ h)
      rfl
    · exact absurd hpending (hrst rest)
  · obtain ⟨c, rfl⟩ | rfl := (exec_ends h).of_rejected hres <;> rfl
  · cases exec_ends h with
    | rejected => exact absurd rfl hres
    | field v hi =>
      cases i with
      | gfAdd | gfMul | gfDiv | gfInv | gfPow => rfl
      | _ => exact absurd hi nofun
    | @decodeBlk _ blk =>
      have hrun := s.decodeBlock_run (s.blockBase blk)
      generalize s.decodeBlock (s.blockBase blk) = e at hrun
      exact hrun.validBits
    | decodeBuf =>
      refine ⟨fun hnb => ?_, fun hnb => State.decodeBlocks_chained hnb s⟩
      rw [show s.bufLen.toNat / s.n = 0 from hnb]
      rfl
    | _ => rfl

/-! ### Frames (R73) -/

/-- The state without what the stages of the block decoder write, and without NCORR and BSTAT: two states that agree on
it differ by what R73 lists for DECODE.BLK beside a command's end. -/
def State.unstaged (s : State) : State :=
  { s with
    syn := [], synZero := false, lam := [], locL := 0, root := [], posn := [], nroots := 0, omega := [], mag := []
    synV := false, locV := false, rootV := false, magV := false, buf := [], ncorr := 0, bstat := [] }

/-- `u` with what a command's end, the stages, NCORR and BSTAT hold in `t`. -/
def State.stagedAs (t u : State) : State :=
  { u with
    res := t.res, intStat := t.intStat, err := t.err, running := t.running, syn := t.syn, synZero := t.synZero
    lam := t.lam, locL := t.locL, root := t.root, posn := t.posn, nroots := t.nroots, omega := t.omega, mag := t.mag
    synV := t.synV, locV := t.locV, rootV := t.rootV, magV := t.magV, buf := t.buf, ncorr := t.ncorr
    bstat := t.bstat }

theorem frame_decodeBlk {s t : State} {r : Res} (blk : BitVec 16) (h : t.unstaged = (s.complete r).unstaged) :
    Frame (.decodeBlk blk) s t :=
  have hstaged : t.stagedAs t.unstaged = t.stagedAs (s.complete r).unstaged := congrArg t.stagedAs h
  hstaged

theorem State.unstaged_buf (m : Memory) (s : State) : State.unstaged { s with buf := m } = s.unstaged := rfl
theorem State.unstaged_ncorr (nc : BitVec 8) (s : State) : State.unstaged { s with ncorr := nc } = s.unstaged := rfl
theorem State.unstaged_complete (r : Res) (s : State) : (s.complete r).unstaged = s.unstaged.complete r := rfl
@[simp] theorem State.syndBody_unstaged (base : Nat) (s : State) : (s.syndBody base).unstaged = s.unstaged := rfl
@[simp] theorem State.bmBody_unstaged (s : State) : s.bmBody.unstaged = s.unstaged := rfl
@[simp] theorem State.chienBody_unstaged (s : State) : s.chienBody.unstaged = s.unstaged := rfl
@[simp] theorem State.forneyBody_unstaged (s : State) : s.forneyBody.unstaged = s.unstaged := rfl
@[simp] theorem State.setBstat_unstaged (b : Nat) (v : Word) (s : State) : (s.setBstat b v).unstaged = s.unstaged := rfl
@[simp] theorem BlockEnd.record_buf (e : BlockEnd) (blk : BitVec 16) : (e.record blk).buf = e.st.buf :=
  State.setBstat_buf blk.toNat (bstatWord e.res e.ncorr) e.st
@[simp] theorem BufAcc.record_buf (p : BufAcc) (nb : Nat) : (p.record nb).buf = p.st.buf := rfl
@[simp] theorem BlockEnd.record_unstaged (e : BlockEnd) (blk : BitVec 16) : (e.record blk).unstaged = e.st.unstaged :=
  State.unstaged_ncorr (BitVec.ofNat 8 e.ncorr) (e.st.setBstat ..)

@[simp] theorem State.restored_unstaged (base : Nat) (s : State) :
    (s.restored base).unstaged = (s.evaluated base).unstaged := State.unstaged_buf _ (s.evaluated base)

theorem BlockRun.unstaged {base : Nat} {s : State} {e : BlockEnd} (hrun : BlockRun base s e) :
    e.st.unstaged = s.unstaged := by
  cases hrun <;> simp

@[simp] theorem State.decodeBlock_unstaged (base : Nat) (s : State) : (s.decodeBlock base).st.unstaged = s.unstaged :=
  (s.decodeBlock_run base).unstaged

theorem State.decodeBlocks_unstaged (nb : Nat) (s : State) : (s.decodeBlocks nb).st.unstaged = s.unstaged := by
  induction nb with
  | zero => rfl
  | succ nb ih => simp [State.decodeBlocks_succ, bufTurn_st, ih]

/-- The three counts that DECODE.BUF writes at its end. -/
def State.withCounts (tot nf nb : BitVec 16) (s : State) : State := { s with totalCorr := tot, nfail := nf, nblk := nb }

/-- The counts lie beside the state that the blocks of DECODE.BUF leave. -/
theorem BufAcc.frame_record {s : State} {p : BufAcc} (h : p.st.unstaged = s.unstaged) (nb : Nat) (r : Res) :
    Frame .decodeBuf s ((p.record nb).complete r) := by
  have hcounts := congrArg (fun u : State =>
    (u.withCounts (BitVec.ofNat 16 p.tot) (BitVec.ofNat 16 p.nf) (BitVec.ofNat 16 nb)).complete r) h
  exact congrArg ((p.record nb).complete r).stagedAs hcounts

theorem Ends.frame {i : Instr} {s t : State} (he : Ends i s t) : Frame i s t := by
  cases he with
  | rejected i s c => cases i <;> rfl
  | field v hi =>
    cases i with
    | gfAdd | gfMul | gfDiv | gfInv | gfPow => rfl
    | _ => exact absurd hi nofun
  | @decodeBlk _ blk =>
    exact frame_decodeBlk (r := (s.decodeBlock (s.blockBase blk)).res) blk (by simp [State.unstaged_complete])
  | decodeBuf => exact BufAcc.frame_record (s.decodeBlocks_unstaged _) _ _
  | _ => rfl

/-! ### The bytes of BUF a command may write (R108) -/

theorem read_correctAll_other {posn : List Byte} {base a : Nat} (mag : List Byte) :
    ∀ {n : Nat} (m : Memory), (∀ k, k < n → a ≠ base + (rd posn k).toNat) →
      Memory.read (correctAll posn mag base n m) a = Memory.read m a
  | 0, _, _ => rfl
  | n + 1, m, h => by
    rw [correctAll_succ, correctTurn, Memory.read_write_other _ (h n (Nat.lt_succ_self n))]
    exact read_correctAll_other mag m fun k hk => h k (Nat.lt_succ_of_lt hk)

theorem BlockRun.read_other {base a : Nat} {s : State} {e : BlockEnd} (hrun : BlockRun base s e)
    (ha : a < base ∨ base + s.n ≤ a) : Memory.read e.st.buf a = Memory.read s.buf a := by
  cases hrun with
  | corrected =>
    rw [State.restored_buf]
    exact Memory.read_writeAll_other _ _ base (by rwa [State.length_repaired])
  | codeword | degree | roots | recheck => simp

theorem State.decodeBlocks_n (nb : Nat) (s : State) : (s.decodeBlocks nb).st.n = s.n :=
  State.n_of_setup_eq (s.decodeBlocks_setup nb)

theorem State.read_decodeBlocks_other {a nb : Nat} (s : State) (ha : nb * s.n ≤ a) :
    Memory.read (s.decodeBlocks nb).st.buf a = Memory.read s.buf a := by
  induction nb with
  | zero => rfl
  | succ nb ih =>
    rw [Nat.succ_mul] at ha
    rw [State.decodeBlocks_succ, bufTurn_st, State.setBstat_buf, State.decodeBlocks_n,
      (State.decodeBlock_run ..).read_other (.inr (by rwa [State.decodeBlocks_n]))]
    exact ih (by omega)

theorem Ends.read_other {i : Instr} {s t : State} (he : Ends i s t) {a : Nat} (ha : ¬ MayWrite i s a) :
    Memory.read t.buf a = Memory.read s.buf a := by
  cases he with
  | correct =>
    rw [State.complete_buf, State.correctBody_buf]
    exact read_correctAll_other s.mag s.buf fun k hk heq => ha ⟨k, hk, heq⟩
  | @decodeBlk _ blk =>
    rw [State.complete_buf, BlockEnd.record_buf]
    have hout : a < s.blockBase blk ∨ s.blockBase blk + s.n ≤ a := by
      by_contra hin
      exact ha ⟨Nat.le_of_not_lt (not_or.mp hin).1, Nat.lt_of_not_le (not_or.mp hin).2⟩
    exact (s.decodeBlock_run _).read_other hout
  | decodeBuf =>
    rw [State.complete_buf, BufAcc.record_buf]
    exact s.read_decodeBlocks_other ((Nat.div_mul_le_self ..).trans (Nat.le_of_not_lt ha))
  | _ => rfl

/-- Settles O20: end by end; no clause of the invariant is needed. -/
theorem commandFrames : Obligations.CommandFrames := fun _ _ _ _ h =>
  ⟨(exec_ends h).frame, fun _ => (exec_ends h).read_other⟩

end Sys2Proof.Machine
end

section
/-! The host's port (10_state.md R31 to R47, 20_memory.md R90 to R102): what an address names, what a cycle with an
aligned access does, and the registers as the host sees them. -/

open Sys2Proof.Claims

namespace Sys2Proof.Machine

/-! ### A cycle by its host event -/

theorem step_of_read {s : State} {addr : Addr} {size : Size} {rest : List HostEvent}
    (h : s.pending = .read addr size :: rest) :
    step s = engineCycle s.running (State.hostRead addr size { s with pending := rest }) := by
  unfold step cycle
  rw [h]
  rfl

theorem step_of_write {s : State} {addr : Addr} {size : Size} {v : Word} {rest : List HostEvent}
    (h : s.pending = .write addr size v :: rest) :
    step s = engineCycle s.running (State.hostWrite addr size v { s with pending := rest }) := by
  unfold step cycle
  rw [h]
  rfl

/-- A rejection changes what R321 lists. -/
theorem reject_eq_rejectedWith (c : Cause) (s : State) : s.reject c = rejectedWith c.mask s := by
  have hbits : s.intStat ||| 2#2 ||| 1#2 = s.intStat ||| 3#2 := by rw [BitVec.or_assoc]; rfl
  simp only [State.reject, State.raiseErr, State.complete, rejectedWith, intErri, intDone, hbits]

/-- The command engine's action while a command runs. -/
theorem engineCycle_some (k : Nat) (u : State) : engineCycle (some k) u = engine k u := by
  cases k with
  | zero =>
    simp only [engineCycle, runCommand, engine, reject_eq_rejectedWith]
    rfl
  | succ k => rfl

theorem engineCycle_idle {was : Option Nat} (h : was = none) (u : State) : engineCycle was u = .next u := by
  rw [h, engineCycle]

/-! ### What an address names (R32) -/

theorem locate_reg (b : Build) {addr : Addr} (h : addr.toNat < 0x400) : locate b addr = locateReg addr.toNat :=
  if_pos h

theorem locate_window (b : Build) {addr : Addr} (h : 0x400 ≤ addr.toNat) (h' : addr.toNat < 0x4000) :
    locate b addr = locateWindow (addr.toNat / 0x400) (addr.toNat % 0x400 / 4) :=
  (if_neg (Nat.not_lt.mpr h)).trans (if_pos h')

theorem locateReg_reserved {a : Nat} (h : 0x048 ≤ a) : locateReg a = .reserved := by
  unfold locateReg
  split
  case h_19 => rfl
  all_goals omega

theorem locateWindow_reserved {w : Nat} (e : Nat) (h : 11 ≤ w) : locateWindow w e = .reserved := by
  unfold locateWindow
  split
  case h_11 => rfl
  all_goals omega

theorem locate_reserved {b : Build} {addr : Addr} (h : ReservedOffset b addr) : locate b addr = .reserved := by
  rcases h with ⟨hlo, hhi⟩ | ⟨hlo, hhi⟩ | hlo
  · rw [locate_reg b hhi, locateReg_reserved hlo]
  · rw [locate_window b (by omega) hhi, locateWindow_reserved _ (by omega)]
  · unfold locate
    simp only []
    rw [if_neg (by omega), if_neg (by omega), if_neg (by omega)]

/-! ### Aligned accesses -/

/-- An aligned read (R91, R99, R102). -/
theorem hostRead_aligned {s : State} {addr : Addr} (ha : addr.toNat % 4 = 0) :
    s.hostRead addr .word =
      if s.busy && !(locate s.build addr).definedWhileBusy s.initDone then
        { s with rdata := Config.freeWord s.draws 0, draws := s.draws + 1 }
      else { s with rdata := s.locValue (locate s.build addr) } := by
  simp [State.hostRead, supported, ha]

/-- An aligned write (R91, R99, R101). -/
theorem hostWrite_aligned {s : State} {addr : Addr} (v : Word) (ha : addr.toNat % 4 = 0) :
    s.hostWrite addr .word v =
      if s.busy then s.writeBusy (locate s.build addr) v else s.writeIdle (locate s.build addr) v := by
  simp [State.hostWrite, supported, ha]

/-- No location shows what the host plans. -/
theorem State.locValue_pending (rest : List HostEvent) (s : State) (loc : Loc) :
    State.locValue { s with pending := rest } loc = s.locValue loc := by
  cases loc <;> rfl

/-- With the core idle a step is the host's read. -/
theorem step_read_idle {s : State} {addr : Addr} {rest : List HostEvent} (hidle : s.running = none)
    (ha : addr.toNat % 4 = 0) (h : Reads s addr rest) :
    step s = .next { s with pending := rest, rdata := s.locValue (locate s.build addr) } := by
  have hnot : State.busy { s with pending := rest } = false := congrArg Option.isSome hidle
  rw [step_of_read h, engineCycle_idle hidle, hostRead_aligned ha, hnot, Bool.false_and, if_neg Bool.false_ne_true,
    State.locValue_pending]

/-- With a command running a step is the host's read, then the command engine's action (log 2). -/
theorem step_read_busy {s : State} {k : Nat} {addr : Addr} {rest : List HostEvent} (hbusy : s.running = some k)
    (h : Reads s addr rest) :
    step s = engine k (State.hostRead addr .word { s with pending := rest }) := by
  rw [step_of_read h, hbusy, engineCycle_some]

/-- With the core idle a step is the host's write. -/
theorem step_write_idle {s : State} {addr : Addr} {v : Word} {rest : List HostEvent} (hidle : s.running = none)
    (ha : addr.toNat % 4 = 0) (h : Writes s addr v rest) :
    step s = .next (State.writeIdle (locate s.build addr) v { s with pending := rest }) := by
  have hnot : State.busy { s with pending := rest } = false := congrArg Option.isSome hidle
  rw [step_of_write h, engineCycle_idle hidle, hostWrite_aligned v ha, hnot, if_neg Bool.false_ne_true]

/-- With a command running a step is the host's write, then the command engine's action (log 2). -/
theorem step_write_busy {s : State} {k : Nat} {addr : Addr} {v : Word} {rest : List HostEvent}
    (hbusy : s.running = some k) (ha : addr.toNat % 4 = 0) (h : Writes s addr v rest) :
    step s = engine k (State.writeBusy (locate s.build addr) v { s with pending := rest }) := by
  have hrun : State.busy { s with pending := rest } = true := congrArg Option.isSome hbusy
  rw [step_of_write h, hostWrite_aligned v ha, if_pos hrun, hbusy, engineCycle_some]

/-- An aligned read of a location that R102 leaves defined while a command runs is one with the core idle. -/
theorem hostRead_defined {s : State} {addr : Addr} (ha : addr.toNat % 4 = 0)
    (h : (locate s.build addr).definedWhileBusy s.initDone = true) :
    s.hostRead addr .word = { s with rdata := s.locValue (locate s.build addr) } := by
  simp [hostRead_aligned ha, h]

/-! ### CMD (R34) -/

/-- A command changes neither CMD nor the data of the host's last read nor INT_EN. -/
theorem Ends.keeps_port {i : Instr} {s t : State} (he : Ends i s t) :
    t.cmd = s.cmd ∧ t.rdata = s.rdata ∧ t.intEn = s.intEn := by
  have hport : ∀ {u : State}, t = u → u.cmd = s.cmd → u.rdata = s.rdata → u.intEn = s.intEn →
      t.cmd = s.cmd ∧ t.rdata = s.rdata ∧ t.intEn = s.intEn := fun htu hcmd hrdata hen => htu ▸ ⟨hcmd, hrdata, hen⟩
  cases i <;> exact hport he.frame rfl rfl rfl

theorem engineCycle_keeps_port {was : Option Nat} {s t : State} (h : engineCycle was s = .next t) :
    t.cmd = s.cmd ∧ t.rdata = s.rdata ∧ t.intEn = s.intEn := by
  obtain ⟨-, rfl⟩ | ⟨-, hrun⟩ | ⟨k, -, rfl⟩ := engineCycle_cases h
  · exact ⟨rfl, rfl, rfl⟩
  · obtain ⟨i, -, hexec⟩ | ⟨e, -, rfl⟩ := runCommand_cases hrun
    · exact (exec_ends hexec).keeps_port
    · exact ⟨rfl, rfl, rfl⟩
  · exact ⟨rfl, rfl, rfl⟩

/-- Settles O7: a write while idle is an accepted command, a write while busy only raises BUSY_WR, and a read takes the
word that no command changes. -/
theorem cmdRegister : Obligations.CmdRegister := by
  refine ⟨fun s w rest hidle h => ?_, fun s k w rest hbusy h => ?_, fun s t rest h hstep => ?_, rfl⟩
  · exact ⟨_, step_write_idle hidle rfl h, nofun, rfl⟩
  · exact step_write_busy hbusy rfl h
  · rw [step_of_read h, hostRead_defined rfl rfl] at hstep
    obtain ⟨hcmd, hrdata, -⟩ := engineCycle_keeps_port hstep
    exact ⟨hrdata, hcmd⟩

/-! ### Registers by their address -/

/-- A register that R102 leaves defined while busy, by its offset. -/
theorem locate_definedRegister {s : State} {a : Nat} {v : Word} (h : (a, v) ∈ definedRegisters s) :
    a < 0x400 ∧ s.locValue (locateReg a) = v ∧ ∀ d, (locateReg a).definedWhileBusy d = true := by
  simp only [definedRegisters, List.mem_cons, Prod.mk.injEq, List.not_mem_nil, or_false] at h
  rcases h with ⟨rfl, rfl⟩ | ⟨rfl, rfl⟩ | ⟨rfl, rfl⟩ | ⟨rfl, rfl⟩ | ⟨rfl, rfl⟩ | ⟨rfl, rfl⟩ | ⟨rfl, rfl⟩ | ⟨rfl, rfl⟩ |
    ⟨rfl, rfl⟩ | ⟨rfl, rfl⟩ | ⟨rfl, rfl⟩ <;> exact ⟨by decide, rfl, fun _ => rfl⟩

/-- A result register, by its offset. -/
theorem locate_resultRegister {s : State} {a : Nat} {v : Word} (h : (a, v) ∈ resultRegisters s) :
    a < 0x400 ∧ s.locValue (locateReg a) = v := by
  simp only [resultRegisters, List.mem_cons, Prod.mk.injEq, List.not_mem_nil, or_false] at h
  rcases h with ⟨rfl, rfl⟩ | ⟨rfl, rfl⟩ | ⟨rfl, rfl⟩ | ⟨rfl, rfl⟩ | ⟨rfl, rfl⟩ | ⟨rfl, rfl⟩ | ⟨rfl, rfl⟩ <;>
    exact ⟨by decide, rfl⟩

/-- Element e of the window numbered w. -/
theorem locate_element (b : Build) {addr : Addr} {w e : Nat} (hw : 1 ≤ w) (hw' : w < 16) (he : e < 256)
    (ha : addr.toNat = 0x400 * w + 4 * e) : locate b addr = locateWindow w e := by
  rw [locate_window b (by omega) (by omega), show addr.toNat / 0x400 = w by omega,
    show addr.toNat % 0x400 / 4 = e by omega]

/-- A byte as the host sees it is that number. -/
theorem toNat_widen_byte (v : Byte) : (widen v).toNat = v.toNat := by
  have hv := v.isLt
  simp only [widen, BitVec.truncate_eq_setWidth, BitVec.toNat_setWidth]
  omega

theorem rd_eq_zero {a : List Byte} {e : Nat} (h : a.length ≤ e) : rd a e = 0#8 :=
  List.getD_eq_default _ _ h

/-- The windows of byte arrays, by their numbers. -/
theorem locate_windows {s : State} {w : Nat × List Byte} (h : w ∈ windows s) :
    ∃ k name, 1 ≤ k ∧ k < 16 ∧ w = (0x400 * k, s.array name) ∧ ∀ e, locateWindow k e = .arr name e := by
  simp only [windows, List.mem_cons, List.not_mem_nil, or_false] at h
  rcases h with rfl | rfl | rfl | rfl | rfl | rfl | rfl | rfl | rfl
  · exact ⟨1, .syn, by decide, by decide, rfl, fun _ => rfl⟩
  · exact ⟨2, .lam, by decide, by decide, rfl, fun _ => rfl⟩
  · exact ⟨3, .omega, by decide, by decide, rfl, fun _ => rfl⟩
  · exact ⟨4, .gen, by decide, by decide, rfl, fun _ => rfl⟩
  · exact ⟨5, .root, by decide, by decide, rfl, fun _ => rfl⟩
  · exact ⟨6, .posn, by decide, by decide, rfl, fun _ => rfl⟩
  · exact ⟨7, .mag, by decide, by decide, rfl, fun _ => rfl⟩
  · exact ⟨8, .exp, by decide, by decide, rfl, fun _ => rfl⟩
  · exact ⟨9, .log, by decide, by decide, rfl, fun _ => rfl⟩

/-- Settles O53: with the core idle every location is read at its defined value, location by location. -/
theorem readsWhileIdle : Obligations.ReadsWhileIdle := by
  intro s addr rest _ hidle ha h
  refine ⟨_, step_read_idle hidle ha h, rfl, fun v hv => ?_, fun w hw e he haddr => ?_, fun b hb haddr => ?_⟩
  · have hreg : addr.toNat < 0x400 ∧ s.locValue (locateReg addr.toNat) = v := by
      rcases List.mem_append.mp hv with hv | hv
      · exact (locate_definedRegister hv).imp_right And.left
      · exact locate_resultRegister hv
    exact (congrArg s.locValue (locate_reg s.build hreg.1)).trans hreg.2
  · obtain ⟨k, name, hk, hk', rfl, hloc⟩ := locate_windows hw
    simp only [locate_element s.build hk hk' he haddr, hloc, State.locValue, toNat_widen_byte]
    split
    case isTrue => rfl
    case isFalse hlen => rw [rd_eq_zero (Nat.le_of_not_lt hlen)]; rfl
  · exact congrArg s.locValue (locate_element s.build (w := 10) (by decide) (by decide) hb haddr)

/-- Settles O52: a location that R102 leaves defined is read as with the core idle, any other read draws a free value. -/
theorem readsWhileBusy : Obligations.ReadsWhileBusy := by
  intro s k addr rest hbusy ha h
  refine ⟨_, step_read_busy hbusy h, ?_, fun v hv => ?_, fun hd e he => ?_⟩
  · rw [hostRead_aligned ha]
    split <;> rfl
  · obtain ⟨hlow, hval, hdef⟩ := locate_definedRegister hv
    have hloc := locate_reg s.build hlow
    rw [hostRead_defined ha (by rw [hloc]; exact hdef _)]
    exact ⟨(congrArg s.locValue hloc).trans hval, rfl⟩
  · have helem : ∀ {w : Nat} {name : ArrName}, 1 ≤ w → w < 16 → addr.toNat = 0x400 * w + 4 * e →
        locateWindow w e = .arr name e → Loc.definedWhileBusy true (.arr name e) = true →
        (State.hostRead addr .word { s with pending := rest }).rdata.toNat = (rd (s.array name) e).toNat := by
      intro w name hw hw' haddr hwin hdef
      have hloc := (locate_element s.build hw hw' he haddr).trans hwin
      rw [hostRead_defined ha (by rw [hloc, hd]; exact hdef)]
      simp only [hloc, State.locValue, toNat_widen_byte]
      rfl
    exact ⟨fun haddr => helem (w := 4) (by decide) (by decide) haddr rfl rfl,
      fun haddr => helem (w := 8) (by decide) (by decide) haddr rfl rfl,
      fun haddr => helem (w := 9) (by decide) (by decide) haddr rfl rfl⟩

/-- Settles O57: a reserved offset names no location, busy or not. -/
theorem reservedOffsetsReadZero : Obligations.ReservedOffsetsReadZero := by
  intro s addr rest hres ha
  have hloc := locate_reserved hres
  refine ⟨fun h => ⟨fun hidle => ?_, fun k hbusy => ?_⟩, fun v h => ⟨fun hidle => ?_, fun k hbusy => ?_⟩⟩
  · rw [step_read_idle hidle ha h, hloc]
    rfl
  · rw [step_read_busy hbusy h, hostRead_defined ha (by rw [hloc]; rfl), hloc]
    rfl
  · rw [step_write_idle hidle ha h, hloc]
    rfl
  · rw [step_write_busy hbusy ha h, hloc]
    rfl

/-! ### Writes (R37 to R46) -/

/-- The low bits of a written word (R31). -/
theorem extract_low (v : Word) (w : Nat) : v.extractLsb' 0 w = v.truncate w := by
  apply BitVec.eq_of_getLsbD_eq
  intro i hi
  simp [hi]

theorem writeCfg_locked {s : State} (hd : s.initDone = true) (stored : State) :
    s.writeCfg stored = flaggedWith 0x080#9 s := if_pos hd

theorem writeCfg_stored {s : State} (hd : s.initDone = false) (stored : State) : s.writeCfg stored = stored :=
  if_neg (by simp [hd])

/-- Settles O54: the two sides of `writeCfg`, and the setup that no step without reset changes. -/
theorem configurationLock : Obligations.ConfigurationLock := by
  refine ⟨fun s v rest hidle => ⟨fun hd addr haddr h => ?_, fun hd => ?_⟩, fun s t hd hrst h => ?_⟩
  · simp only [List.mem_cons, List.not_mem_nil, or_false] at haddr
    have hlocked : ∀ {stored : State},
        State.writeCfg { s with pending := rest } stored = flaggedWith 0x080#9 { s with pending := rest } :=
      writeCfg_locked (s := { s with pending := rest }) hd _
    rcases haddr with rfl | rfl | rfl | rfl <;> exact (step_write_idle hidle rfl h).trans (congrArg _ hlocked)
  · have hstored : ∀ {stored : State}, State.writeCfg { s with pending := rest } stored = stored :=
      writeCfg_stored (s := { s with pending := rest }) hd _
    simp only [← extract_low]
    exact ⟨fun h => (step_write_idle hidle rfl h).trans (congrArg _ hstored),
      fun h => (step_write_idle hidle rfl h).trans (congrArg _ hstored),
      fun h => (step_write_idle hidle rfl h).trans (congrArg _ hstored),
      fun h => (step_write_idle hidle rfl h).trans (congrArg _ hstored)⟩
  · obtain ⟨-, hinit, hn, hnpar, hprim, hfcr, -, -⟩ := State.setup_eq_iff.mp ((step_keepsSetup hrst h).setup hd)
    exact ⟨hinit.trans hd, hn, hnpar, hprim, hfcr⟩

/-- A read-only register, by its offset. -/
theorem writeIdle_readOnly (v : Word) (s : State) {a : Nat}
    (h : a ∈ [0x000, 0x008, 0x02C, 0x030, 0x034, 0x038, 0x03C, 0x040, 0x044]) :
    a < 0x400 ∧ s.writeIdle (locateReg a) v = s := by
  simp only [List.mem_cons, List.not_mem_nil, or_false] at h
  rcases h with rfl | rfl | rfl | rfl | rfl | rfl | rfl | rfl | rfl <;> exact ⟨by decide, rfl⟩

/-- A write to an array's or table's window is ignored (R54, R99). -/
theorem writeIdle_window (v : Word) (s : State) (w e : Nat) : s.writeIdle (locateWindow w e) v = s := by
  unfold locateWindow
  split <;> rfl

/-- Settles O55: the writable registers by their address, the others by their range. -/
theorem writesWhileIdle : Obligations.WritesWhileIdle := by
  intro s v rest hidle
  simp only [← extract_low]
  refine ⟨step_write_idle hidle rfl, step_write_idle hidle rfl, step_write_idle hidle rfl, step_write_idle hidle rfl,
    fun addr ha h hro => ?_⟩
  rw [step_write_idle hidle ha h]
  rcases hro with hreg | ⟨hlo, hhi⟩
  · obtain ⟨hlow, hignored⟩ := writeIdle_readOnly v { s with pending := rest } hreg
    rw [locate_reg s.build hlow, hignored]
  · rw [locate_window s.build hlo (by omega), writeIdle_window]

/-! ### The interrupt (R38, R40, R324) -/

/-- Settles O58: the host's write comes first, and the command's end sets its bits after it. -/
theorem setWinsOverClear : Obligations.SetWinsOverClear := by
  intro s t v rest hbusy h hstep
  rw [step_of_write h, hbusy] at hstep
  refine ⟨runCommand_done hstep, fun hres => ?_⟩
  obtain ⟨i, -, hexec⟩ | ⟨e, -, rfl⟩ := runCommand_cases hstep
  · obtain ⟨c, rfl⟩ | rfl := (exec_ends hexec).of_rejected hres <;> exact State.reject_erri ..
  · exact State.reject_erri ..

/-- From `s` to `t` no interrupt source falls and no enable changes. -/
structure KeepsInterrupt (s t : State) : Prop where
  intEn : t.intEn = s.intEn
  intStat : ∀ i, s.intStat.getLsbD i = true → t.intStat.getLsbD i = true

theorem KeepsInterrupt.of_eq {s t : State} (hen : t.intEn = s.intEn) (hstat : t.intStat = s.intStat) :
    KeepsInterrupt s t :=
  ⟨hen, fun _ h => hstat ▸ h⟩

/-- Setting bits lets none fall. -/
theorem KeepsInterrupt.of_or {s t : State} {m : BitVec 2} (hen : t.intEn = s.intEn)
    (hstat : t.intStat = s.intStat ||| m) : KeepsInterrupt s t :=
  ⟨hen, fun _ h => by rw [hstat, BitVec.getLsbD_or, h, Bool.true_or]⟩

theorem KeepsInterrupt.trans {s t u : State} (hst : KeepsInterrupt s t) (htu : KeepsInterrupt t u) :
    KeepsInterrupt s u :=
  ⟨htu.intEn.trans hst.intEn, fun i h => htu.intStat i (hst.intStat i h)⟩

theorem KeepsInterrupt.irq {s t : State} (h : KeepsInterrupt s t) (hirq : s.irq = true) : t.irq = true := by
  simp only [State.irq, Bool.or_eq_true, Bool.and_eq_true, h.intEn] at hirq ⊢
  exact hirq.imp (And.imp_left (h.intStat 0)) (And.imp_left (h.intStat 1))

theorem raiseErr_keepsInterrupt (c : Cause) (s : State) : KeepsInterrupt s (s.raiseErr c) := .of_or rfl rfl

theorem complete_keepsInterrupt {s u : State} {r : Res} (hen : u.intEn = s.intEn) (hstat : u.intStat = s.intStat) :
    KeepsInterrupt s (u.complete r) :=
  .of_or hen (congrArg (· ||| intDone) hstat)

theorem reject_keepsInterrupt (c : Cause) (s : State) : KeepsInterrupt s (s.reject c) :=
  (raiseErr_keepsInterrupt c s).trans (complete_keepsInterrupt rfl rfl)

/-- The stages leave ERR and the interrupt alone. -/
theorem State.flags_of_unstaged {s t : State} (h : t.unstaged = s.unstaged) :
    t.err = s.err ∧ t.intStat = s.intStat ∧ t.intEn = s.intEn :=
  ⟨(congrArg State.err h :), (congrArg State.intStat h :), (congrArg State.intEn h :)⟩

theorem Ends.keepsInterrupt {i : Instr} {s t : State} (he : Ends i s t) : KeepsInterrupt s t := by
  cases he with
  | rejected _ _ c => exact reject_keepsInterrupt c s
  | failedBuild => exact (reject_keepsInterrupt .cfg s).trans (.of_eq rfl rfl)
  | @decodeBlk _ blk =>
    obtain ⟨-, hstat, hen⟩ := State.flags_of_unstaged (s.decodeBlock_unstaged (s.blockBase blk))
    exact complete_keepsInterrupt hen hstat
  | decodeBuf =>
    obtain ⟨-, hstat, hen⟩ := State.flags_of_unstaged (s.decodeBlocks_unstaged (s.bufLen.toNat / s.n))
    exact complete_keepsInterrupt hen hstat
  | _ => exact complete_keepsInterrupt rfl rfl

theorem engineCycle_keepsInterrupt {was : Option Nat} {s t : State} (h : engineCycle was s = .next t) :
    KeepsInterrupt s t := by
  obtain ⟨-, rfl⟩ | ⟨-, hrun⟩ | ⟨k, -, rfl⟩ := engineCycle_cases h
  · exact .of_eq rfl rfl
  · obtain ⟨i, -, hexec⟩ | ⟨e, -, rfl⟩ := runCommand_cases hrun
    · exact (exec_ends hexec).keepsInterrupt
    · exact reject_keepsInterrupt _ s
  · exact .of_eq rfl rfl

theorem hostRead_keepsInterrupt (addr : Addr) (size : Size) (s : State) : KeepsInterrupt s (s.hostRead addr size) := by
  simp only [State.hostRead]
  split
  · split <;> exact .of_eq rfl rfl
  · exact (raiseErr_keepsInterrupt .bus s).trans (.of_eq rfl rfl)

theorem writeCfg_keepsInterrupt {s stored : State} (hen : stored.intEn = s.intEn) (hstat : stored.intStat = s.intStat) :
    KeepsInterrupt s (s.writeCfg stored) := by
  unfold State.writeCfg
  split
  · exact raiseErr_keepsInterrupt .locked s
  · exact .of_eq hen hstat

/-- Of the supported writes only those to INT_STAT and INT_EN touch the interrupt otherwise than by setting ERRI. -/
theorem writeIdle_keepsInterrupt {loc : Loc} (hstat : loc ≠ .intStat) (hen : loc ≠ .intEn) (v : Word) (s : State) :
    KeepsInterrupt s (s.writeIdle loc v) := by
  cases loc with
  | intStat => exact absurd rfl hstat
  | intEn => exact absurd rfl hen
  | cfgN | cfgNpar | cfgPrim | cfgFcr => exact writeCfg_keepsInterrupt rfl rfl
  | _ => exact .of_eq rfl rfl

theorem writeBusy_keepsInterrupt {loc : Loc} (hstat : loc ≠ .intStat) (hen : loc ≠ .intEn) (v : Word) (s : State) :
    KeepsInterrupt s (s.writeBusy loc v) := by
  cases loc with
  | intStat => exact absurd rfl hstat
  | intEn => exact absurd rfl hen
  | cmd | cfgN | cfgNpar | cfgPrim | cfgFcr | bufLen | bufWord => exact raiseErr_keepsInterrupt .busyWr s
  | _ => exact .of_eq rfl rfl

/-- The address of a control register: no other location has its name (R32). -/
theorem locateReg_of_locate {b : Build} {addr : Addr} {loc : Loc} (h : locate b addr = loc)
    (hloc : loc = .intStat ∨ loc = .intEn) : locateReg addr.toNat = loc := by
  unfold locate at h
  simp only [] at h
  split at h
  · exact h
  · split at h
    · unfold locateWindow at h
      split at h <;> simp [← h] at hloc
    · split at h <;> simp [← h] at hloc

theorem locate_intStat {b : Build} {addr : Addr} (h : locate b addr = .intStat) : addr = 0x0010#16 := by
  have hreg := locateReg_of_locate h (.inl rfl)
  unfold locateReg at hreg
  split at hreg
  case h_5 heq => exact BitVec.eq_of_toNat_eq heq
  all_goals exact absurd hreg nofun

theorem locate_intEn {b : Build} {addr : Addr} (h : locate b addr = .intEn) : addr = 0x0014#16 := by
  have hreg := locateReg_of_locate h (.inr rfl)
  unfold locateReg at hreg
  split at hreg
  case h_6 heq => exact BitVec.eq_of_toNat_eq heq
  all_goals exact absurd hreg nofun

theorem hostWrite_keepsInterrupt {addr : Addr} {size : Size}
    (h : size = .word → addr ≠ 0x0010#16 ∧ addr ≠ 0x0014#16) (v : Word) (s : State) :
    KeepsInterrupt s (s.hostWrite addr size v) := by
  simp only [State.hostWrite]
  split
  case isTrue hs =>
    simp only [supported, Bool.and_eq_true, beq_iff_eq] at hs
    have hstat : locate s.build addr ≠ .intStat := fun heq => (h hs.1).1 (locate_intStat heq)
    have hen : locate s.build addr ≠ .intEn := fun heq => (h hs.1).2 (locate_intEn heq)
    split
    · exact writeBusy_keepsInterrupt hstat hen v s
    · exact writeIdle_keepsInterrupt hstat hen v s
  case isFalse => exact raiseErr_keepsInterrupt .bus s

theorem hostEvent_keepsInterrupt {e : HostEvent}
    (h : ∀ addr v, e = .write addr .word v → addr ≠ 0x0010#16 ∧ addr ≠ 0x0014#16) (s : State) : KeepsInterrupt s (s.hostEvent e) := by
  cases e with
  | idle | rst => exact .of_eq rfl rfl
  | read addr size => exact hostRead_keepsInterrupt addr size s
  | write addr size v => exact hostWrite_keepsInterrupt (fun hsize => h addr v (hsize ▸ rfl)) v s
  | poll => exact hostRead_keepsInterrupt statusAddr .word s

theorem afterHost_keepsInterrupt {s : State}
    (h : ∀ v rest, ¬ Writes s 0x0010#16 v rest ∧ ¬ Writes s 0x0014#16 v rest) : KeepsInterrupt s s.afterHost := by
  have hpop : ∀ (rest : List HostEvent) {t : State}, KeepsInterrupt { s with pending := rest } t → KeepsInterrupt s t :=
    fun rest _ ht => KeepsInterrupt.trans (t := { s with pending := rest }) (.of_eq rfl rfl) ht
  unfold State.afterHost
  split
  · exact .of_eq rfl rfl
  · exact hpop _ (hostRead_keepsInterrupt statusAddr .word _)
  · rename_i e rest _ hpending
    refine hpop rest (hostEvent_keepsInterrupt ?_ _)
    rintro addr v rfl
    exact ⟨fun haddr => (h v rest).1 (haddr ▸ hpending), fun haddr => (h v rest).2 (haddr ▸ hpending)⟩

/-- The line is high exactly when some source is set and enabled (R40). -/
theorem State.irq_iff (s : State) : s.irq = true ↔ s.intStat &&& s.intEn ≠ 0#2 := by
  unfold State.irq
  generalize s.intStat = stat
  generalize s.intEn = en
  revert stat en
  decide

/-- Settles O59: the host's event keeps the interrupt, and so does the command engine after it. -/
theorem interruptIsLevel : Obligations.InterruptIsLevel := by
  refine ⟨fun s v rest hidle h hpending => ⟨_, step_write_idle hidle rfl h, ?_⟩, fun s t hirq hrst hstep hno => ?_⟩
  · rw [State.irq_iff]
    rw [← extract_low] at hpending
    exact hpending
  · obtain ⟨rest, hpending, -⟩ | ⟨-, hcycle⟩ := step_cases s
    · exact absurd hpending (hrst rest)
    · exact ((afterHost_keepsInterrupt hno).trans (engineCycle_keepsInterrupt (hcycle ▸ hstep))).irq hirq

/-! ### STATUS and the reset values (R35, R72) -/

theorem toNat_append_add {n w : Nat} (x : BitVec n) (y : BitVec w) : (x ++ y).toNat = x.toNat * 2 ^ w + y.toNat := by
  rw [BitVec.toNat_append, ← Nat.shiftLeft_add_eq_or_of_lt y.isLt, Nat.shiftLeft_eq]

theorem toNat_bit1 (b : Bool) : (bit1 b).toNat = b.toNat := BitVec.toNat_ofBool b

/-- Settles O60: each field is put above those below it. -/
theorem statusLayout : Obligations.StatusLayout := by
  intro s
  have hreserved : (0#21).toNat = 0 := rfl
  refine (toNat_append_add _ (bit1 s.busy)).trans ?_
  simp only [toNat_append_add, toNat_bit1, hreserved, State.busy, BitVec.toNat_zero]
  omega

theorem State.irq_of_clear {s : State} (h : s.intStat = 0#2) : s.irq = false := by
  simp [State.irq, h]

/-- What reset leaves outside the arrays, whatever it keeps of the model's own fields. -/
theorem atReset_of_bstat {build pending latencies draws rdata syn lam omega gen root posn mag tab bstat buf}
    (h : ∀ v ∈ bstat, v &&& 0x7FFF00F8#32 = 0#32) :
    AtReset { State.reset with
      build := build, pending := pending, latencies := latencies, draws := draws, rdata := rdata, syn := syn
      lam := lam, omega := omega, gen := gen, root := root, posn := posn, mag := mag, tab := tab, bstat := bstat
      buf := buf } :=
  ⟨rfl, rfl, BitVec.eq_of_toNat_eq (statusLayout _), rfl, rfl, rfl, State.irq_of_clear rfl, rfl, rfl, rfl, rfl, rfl, rfl, rfl,
    rfl, rfl, rfl, rfl, rfl, rfl, h⟩

/-- Settles O24: power-on and the edge with rst = 1 leave the same registers; N = 0 fails INIT's first check. -/
theorem resetValues : Obligations.ResetValues := by
  refine ⟨atReset_of_bstat fun v hv => ?_, fun s rest hpending => ⟨s.afterRst rest, ?_, ?_, rfl, rfl, ?_⟩⟩
  · rw [List.eq_of_mem_replicate hv]
    rfl
  · unfold step cycle
    rw [hpending]
  · refine atReset_of_bstat fun v hv => ?_
    obtain ⟨b, -, rfl⟩ := List.mem_map.mp hv
    exact and_bstatLayout _
  · exact congrArg _ (reject_eq_rejectedWith .cfg _)

end Sys2Proof.Machine
end

section
/-! The Chien search (43_chien.md): it finds the roots of the locator and no more than its degree. -/

open Sys2Proof.Claims

namespace Sys2Proof.Machine

/-! ### A list of coefficients as a polynomial over the field -/

namespace ToField

open Polynomial

variable {prim : BitVec 9} {t : Tables} {K : Type} [Field K] (φ : ToField t K)

/-- The polynomial with the coefficients of a list. -/
noncomputable def poly (p : List Byte) : K[X] := ∑ i ∈ Finset.range p.length, C (φ.map (rd p i)) * X ^ i

theorem coeff_poly (p : List Byte) (i : Nat) : (φ.poly p).coeff i = φ.map (rd p i) := by
  simp only [poly, finsetSum_coeff, coeff_C_mul_X_pow, Finset.sum_ite_eq, Finset.mem_range]
  split
  case isTrue => rfl
  case isFalse hi => rw [rd_eq_zero (Nat.le_of_not_lt hi), φ.map_zero]

theorem eval_poly (p : List Byte) (x : Byte) : (φ.poly p).eval (φ.map x) = φ.map (polyEval t p x) := by
  simp [poly, eval_finsetSum, φ.map_polyEval]

end ToField

theorem Tables.Logs.alphaNeg_inj {prim : BitVec 9} {t : Tables} (h : t.Logs prim) {p q : Nat} (hp : p < 255)
    (hq : q < 255) (heq : t.alphaNeg p = t.alphaNeg q) : p = q := by
  simp only [Tables.alphaNeg, h.alpha_eq] at heq
  rw [← h.orbit.powX_mod (255 - p), ← h.orbit.powX_mod (255 - q)] at heq
  have hmod := h.orbit.powX_inj (Nat.mod_lt _ (by decide)) (Nat.mod_lt _ (by decide)) heq
  omega

theorem chien_pairwise (t : Tables) (lam : List Byte) : (chien t lam).Pairwise (· < ·) :=
  List.pairwise_lt_range.filter _

theorem chien_length_lt (t : Tables) (lam : List Byte) : (chien t lam).length < 256 :=
  Nat.lt_succ_of_le ((List.length_filter_le ..).trans (Nat.le_of_eq List.length_range))

/-- A polynomial with constant term 1 has no more roots than its degree. -/
theorem chien_length_le {prim : BitVec 9} {t : Tables} (h : t.Logs prim) {lam : List Byte} {len : Nat}
    (hone : rd lam 0 = 0x01#8) (hdeg : ∀ i, len < i → rd lam i = 0#8) : (chien t lam).length ≤ len := by
  classical
  obtain ⟨K, _, ⟨φ⟩⟩ := exists_toField h
  have hne : φ.poly lam ≠ 0 := fun h0 => by
    have hcoeff := φ.coeff_poly lam 0
    rw [h0, hone, φ.map_one, Polynomial.coeff_zero] at hcoeff
    exact zero_ne_one hcoeff
  have hnat : (φ.poly lam).natDegree ≤ len :=
    Polynomial.natDegree_le_iff_coeff_eq_zero.mpr fun i hi => by rw [φ.coeff_poly, hdeg i hi, φ.map_zero]
  have hinj : Set.InjOn (fun p => φ.map (t.alphaNeg p)) (chien t lam).toFinset := fun p hp q hq heq =>
    h.alphaNeg_inj (mem_chien.mp (List.mem_toFinset.mp hp)).1 (mem_chien.mp (List.mem_toFinset.mp hq)).1
      (φ.injective heq)
  have hroots : ((chien t lam).toFinset.image fun p => φ.map (t.alphaNeg p)).val ⊆ (φ.poly lam).roots := fun x hx => by
    obtain ⟨p, hp, rfl⟩ := Finset.mem_image.mp (Finset.mem_val.mp hx)
    have hzero := (mem_chien.mp (List.mem_toFinset.mp hp)).2
    rw [Polynomial.mem_roots hne, Polynomial.IsRoot, φ.eval_poly, hzero, φ.map_zero]
  calc (chien t lam).length
      = (chien t lam).toFinset.card := (List.toFinset_card_of_nodup (chien_pairwise t lam).nodup).symm
    _ = ((chien t lam).toFinset.image fun p => φ.map (t.alphaNeg p)).card := (Finset.card_image_of_injOn hinj).symm
    _ ≤ (φ.poly lam).natDegree := Polynomial.card_le_degree_of_subset_roots hroots
    _ ≤ len := hnat

/-! ### CHIEN (R231, R232) -/

theorem rd_take (a : List Byte) (n i : Nat) : rd (a.take n) i = if i < n then rd a i else 0#8 := by
  simp only [rd, List.getD_eq_getElem?_getD, List.getElem?_take]
  split <;> rfl

/-- The positions a Chien search of the state's locator finds. -/
def State.positions (s : State) : List Nat := chien s.tab (s.lam.take (s.npar + 1))

theorem State.chienBody_nroots_toNat (s : State) : s.chienBody.nroots.toNat = s.positions.length :=
  BitVec.toNat_ofNat .. |>.trans (Nat.mod_eq_of_lt (chien_length_lt ..))

theorem exec_chien {s : State} (hd : s.initDone = true) (hloc : s.locV = true) :
    exec .chien s = .next (s.chienBody.complete s.chienBody.chienRes) := by
  simp [exec, execChien, hd, hloc]

theorem State.chienRes_eq (s : State) :
    s.chienBody.chienRes = if s.positions.length = s.locL.toNat then .ok else .uncorrRoots := by
  have hiff : s.chienBody.nroots = s.chienBody.locL ↔ s.positions.length = s.locL.toNat := by
    rw [← s.chienBody_nroots_toNat, ← BitVec.toNat_inj, State.chienBody_locL]
  simp only [State.chienRes, hiff]

theorem State.Inv.logs {s : State} (h : s.Inv) (hd : s.initDone = true) : s.tab.Logs s.cfgPrim :=
  buildTables_logs (h.ready hd).tab

theorem State.Inv.mem_positions {s : State} (h : s.Inv) (hd : s.initDone = true) {p : Nat} :
    p ∈ s.positions ↔ p < 255 ∧ powerSum s.tab (s.npar + 1) (rd s.lam) (s.tab.alpha (255 - p)) = 0#8 := by
  have hlen : (s.lam.take (s.npar + 1)).length = s.npar + 1 := by
    have hnpar := h.npar_le hd
    rw [List.length_take, h.sized.lam]
    omega
  have hval : ∀ x, powerSum s.tab (s.npar + 1) (rd (s.lam.take (s.npar + 1))) x =
      powerSum s.tab (s.npar + 1) (rd s.lam) x := fun x => xorSum_congr fun i hi => by rw [rd_take, if_pos hi]
  rw [State.positions, mem_chien, (h.logs hd).polyEval_eq_powerSum, hlen, hval]
  rfl

theorem State.rd_chienBody_root {s : State} {k : Nat} (hk : k < s.build.nparMax) (hk' : k < s.positions.length) :
    (rd s.chienBody.root k).toNat = s.positions.getD k 0 := by
  have hlt := chien_getD_lt s.tab (s.lam.take (s.npar + 1)) k
  rw [State.chienBody, rd_fillUsed, if_pos ⟨hk, hk'⟩, BitVec.toNat_ofNat, Nat.mod_eq_of_lt (by omega)]
  rfl

theorem State.rd_chienBody_posn {s : State} {k : Nat} (hk : k < s.build.nparMax) (hk' : k < s.positions.length) :
    (rd s.chienBody.posn k).toNat = s.n - 1 - s.positions.getD k 0 % s.n := by
  rw [State.chienBody, rd_fillUsed, if_pos ⟨hk, hk'⟩, toNat_posnOf (n := s.n) s.cfgN.isLt]
  rfl

theorem State.rd_chienBody_above {s : State} {k : Nat} (hk : s.positions.length ≤ k) :
    rd s.chienBody.root k = 0#8 ∧ rd s.chienBody.posn k = 0#8 := by
  have hnot : ¬ (k < s.build.nparMax ∧ k < s.positions.length) := fun h => absurd h.2 (Nat.not_lt.mpr hk)
  rw [State.chienBody, rd_fillUsed, rd_fillUsed]
  exact ⟨if_neg hnot, if_neg hnot⟩

/-- Settles O39: Horner's rule gives the powers' sum, so the search tests what R230 states. -/
theorem chienFindsAllRoots : Obligations.ChienFindsAllRoots := by
  intro s h hd hloc
  refine ⟨_, s.positions, exec_chien hd hloc, ?_, length_fillUsed .., length_fillUsed .., chien_pairwise .., ?_,
    fun p => h.mem_positions hd, fun k hk hk' => ?_, fun k hk => State.rd_chienBody_above hk⟩
  · rw [State.chienRes_eq]
    rfl
  · exact s.chienBody_nroots_toNat
  · exact ⟨State.rd_chienBody_root hk hk', State.rd_chienBody_posn hk hk'⟩

theorem State.Inv.positions_length_le {s : State} (h : s.Inv) (hd : s.initDone = true) (hloc : s.locV = true) :
    s.positions.length ≤ s.locL.toNat := by
  refine chien_length_le (h.logs hd) ?_ fun i hi => ?_
  · rw [rd_take, if_pos (Nat.succ_pos _), h.lamOne hloc]
  · rw [rd_take, h.lamDeg hloc i hi, ite_self]

/-- Settles O40: LAMBDA has constant term 1 and no term above LOC_L. -/
theorem chienRootsAtMostDegree : Obligations.ChienRootsAtMostDegree := by
  intro s t h hd hloc hexec
  obtain rfl := Host.Outcome.next.inj ((exec_chien hd hloc).symm.trans hexec)
  have hle : s.chienBody.nroots.toNat ≤ s.locL.toNat := s.chienBody_nroots_toNat ▸ h.positions_length_le hd hloc
  exact ⟨hle, hle.trans (h.locLe hd)⟩

end Sys2Proof.Machine
end

section
/-! What DECODE.BLK and DECODE.BUF leave (45_block_decoder.md R280 to R285). `BlockOutcome` says once what holds at each
of the five ends of a block; DECODE.BLK records one block, DECODE.BUF one after the other (`State.blockEnd`). -/

open Sys2Proof.Claims

namespace Sys2Proof.Machine

/-! ### Codewords (R192 to R195) -/

/-- Syndrome j of a block by Horner's rule is its value by powers. -/
theorem syndromeOf_bytes {s : State} (h : s.tab.Logs s.cfgPrim) (m : Memory) (base j : Nat) :
    syndromeOf s.tab s.fcr (Memory.bytes m base s.n) j = syndrome s.tab s.fcr s.n m base j := by
  have hhorner : syndromeOf s.tab s.fcr (Memory.bytes m base s.n) j =
      polyEval s.tab (Memory.bytes m base s.n).reverse (s.tab.genRoot s.fcr j) :=
    List.foldl_eq_foldr_reverse
  have hcoeff : ∀ i, i < s.n → rd (Memory.bytes m base s.n).reverse i = Memory.read m (base + s.n - 1 - i) := by
    intro i hi
    rw [rd, List.getD_eq_getElem _ _ (by simpa using hi)]
    simp only [Memory.bytes, List.getElem_reverse, List.getElem_map, List.getElem_range, List.length_map,
      List.length_range]
    congr 1
    omega
  rw [hhorner, h.polyEval_eq_powerSum, List.length_reverse, Memory.length_bytes, syndrome, Tables.alpha_mod]
  exact xorSum_congr fun i hi => by rw [hcoeff i hi]; rfl

/-- The recheck of R280 step 5 is the test for a codeword. -/
theorem syndromesZero_iff {s : State} (h : s.tab.Logs s.cfgPrim) (m : Memory) (base : Nat) :
    syndromesZero s.tab s.fcr s.npar (Memory.bytes m base s.n) = true ↔ Codeword s m base := by
  simp only [syndromesZero, List.all_eq_true, List.mem_range, beq_iff_eq, syndromeOf_bytes h]
  rfl

/-- Writing a block and reading it back. -/
theorem Memory.bytes_writeAll {m : Memory} (hwf : wf m = true) (base : Nat) (w : List Byte) :
    bytes (writeAll m base w) base w.length = w := by
  refine List.ext_getElem (length_bytes ..) fun k hk _ => ?_
  rw [length_bytes] at hk
  simp only [bytes, List.getElem_map, List.getElem_range]
  rw [read_writeAll_self w base k hwf hk, List.getD_eq_getElem _ _ hk]

theorem Memory.bytes_congr {m m' : Memory} {base n : Nat} (h : ∀ k, k < n → read m (base + k) = read m' (base + k)) :
    bytes m base n = bytes m' base n :=
  List.map_congr_left fun k hk => h k (List.mem_range.mp hk)

/-- Whether a block is a codeword depends on the configuration and its bytes alone. -/
theorem codeword_congr {s : State} (h : s.tab.Logs s.cfgPrim) {m m' : Memory} {base : Nat}
    (hbytes : ∀ k, k < s.n → Memory.read m (base + k) = Memory.read m' (base + k)) :
    Codeword s m base ↔ Codeword s m' base := by
  rw [← syndromesZero_iff h, ← syndromesZero_iff h, Memory.bytes_congr hbytes]

theorem codeword_of_setup_eq {s u : State} (hset : u.setup = s.setup) (m : Memory) (base : Nat) :
    Codeword u m base ↔ Codeword s m base := by
  obtain ⟨-, -, hn, hnpar, -, hfcr, htab, -⟩ := State.setup_eq_iff.mp hset
  simp only [Codeword, hn, hnpar, hfcr, htab]

/-! ### The outcome of a block (R285) -/

/-- What holds at the end of a block that started at `base` in state `s`. -/
structure BlockOutcome (base : Nat) (s : State) (e : BlockEnd) : Prop where
  failed : e.res ≠ .ok → e.ncorr = 0 ∧ e.st.buf = s.buf
  decoded : e.res = .ok → Codeword s e.st.buf base
  corrected : e.res = .ok → e.st.synZero = false → e.ncorr = e.st.nroots.toNat ∧ e.st.nroots = e.st.locL
  ncorr_le : e.ncorr ≤ s.npar / 2
  codeword : Codeword s s.buf base → e.res = .ok ∧ e.ncorr = 0 ∧ e.st.buf = s.buf

theorem BlockRun.outcome {base : Nat} {s : State} {e : BlockEnd} (hrun : BlockRun base s e) (h : s.Inv)
    (hd : s.initDone = true) : BlockOutcome base s e := by
  have hzero := syndromesZero_iff (h.logs hd) s.buf base
  have hnot : ∀ {P : Prop}, syndromesZero s.tab s.fcr s.npar (s.blockBytes base) = false → Codeword s s.buf base → P :=
    fun hfalse hcode => absurd ((hzero.mpr hcode).symm.trans hfalse) nofun
  cases hrun with
  | codeword hz =>
    exact {
      failed := fun hres => absurd rfl hres
      decoded := fun _ => hzero.mp hz
      corrected := fun _ hz' => absurd (hz.symm.trans hz') nofun
      ncorr_le := Nat.zero_le _
      codeword := fun _ => ⟨rfl, rfl, rfl⟩ }
  | degree hz | roots hz | recheck hz =>
    exact {
      failed := fun _ => ⟨rfl, by simp⟩
      decoded := nofun
      corrected := nofun
      ncorr_le := Nat.zero_le _
      codeword := hnot hz }
  | corrected hz hlen hroots hcheck =>
    exact {
      failed := fun hres => absurd rfl hres
      decoded := fun _ => by
        rw [State.restored_buf, ← syndromesZero_iff (h.logs hd), ← s.length_repaired base,
          Memory.bytes_writeAll h.bufWf]
        exact hcheck
      corrected := fun _ _ => by simpa using hroots
      ncorr_le := hroots ▸ hlen
      codeword := hnot hz }

/-! ### DECODE.BLK (R281) -/

theorem BlockRun.bstat {base : Nat} {s : State} {e : BlockEnd} (hrun : BlockRun base s e) : e.st.bstat = s.bstat := by
  cases hrun <;> simp

theorem getD_set_self {l : List Word} {i : Nat} (v : Word) (h : i < l.length) : (l.set i v).getD i 0#32 = v := by
  simp [h]

theorem getD_set_other {l : List Word} {i j : Nat} (v : Word) (h : i ≠ j) :
    (l.set i v).getD j 0#32 = l.getD j 0#32 := by
  simp [h]

theorem exec_decodeBlk {s : State} {blk : BitVec 16} (hd : s.initDone = true) (hblk : InRange blk s) :
    exec (.decodeBlk blk) s = .next
      (((s.decodeBlock (s.blockBase blk)).record blk).complete (s.decodeBlock (s.blockBase blk)).res) := by
  simp [exec, execDecodeBlk, hd, checkBlock_eq_none.mpr hblk]

/-- Settles O44: the end of the block, recorded. -/
theorem decodeBlkOutcome : Obligations.DecodeBlkOutcome := by
  intro s blk h hd hblk
  have hexec := exec_decodeBlk hd hblk
  have hrun := s.decodeBlock_run (s.blockBase blk)
  have hflags := State.flags_of_unstaged hrun.unstaged
  have hframe := (exec_ends hexec).frame
  have hout := hrun.outcome h hd
  generalize s.decodeBlock (s.blockBase blk) = e at *
  have hnpar : s.npar < 256 := s.cfgNpar.isLt
  have hncorr : (BitVec.ofNat 8 e.ncorr).toNat = e.ncorr :=
    BitVec.toNat_ofNat .. |>.trans (Nat.mod_eq_of_lt (by have := hout.ncorr_le; omega))
  have hlen : blk.toNat < e.st.bstat.length := hrun.bstat ▸ h.sized.bstat ▸ hblk.1
  refine ⟨_, hexec, hframe, rfl, hflags.1, congrArg (· ||| intDone) hflags.2.1, hrun.res_mem, fun hres => ?_,
    fun hres => hout.decoded hres, fun hres hz => ?_, fun hcode => ?_, fun a ha => hrun.read_other ha, ?_,
    fun b hb => ?_⟩
  · obtain ⟨hnc, hbuf⟩ := hout.failed hres
    exact ⟨congrArg (BitVec.ofNat 8) hnc, hbuf⟩
  · obtain ⟨hnc, hroots⟩ := hout.corrected hres hz
    exact ⟨BitVec.eq_of_toNat_eq (hncorr.trans hnc), hroots, hncorr.trans_le hout.ncorr_le⟩
  · obtain ⟨hres, hnc, hbuf⟩ := hout.codeword hcode
    exact ⟨hres, congrArg (BitVec.ofNat 8) hnc, hbuf⟩
  · have hentry : (e.st.bstat.set blk.toNat (bstatWord e.res e.ncorr)).getD blk.toNat 0#32 = bstatWord e.res e.ncorr :=
      getD_set_self _ hlen
    refine (congrArg BitVec.toNat hentry).trans ?_
    rw [toNat_bstatWord, ← BitVec.toNat_ofNat e.ncorr 8, Nat.mul_comm]
    rfl
  · exact (getD_set_other _ hb.symm).trans (congrArg (·.getD b 0#32) hrun.bstat)

/-! ### DECODE.BUF (R282 to R284) -/

/-- The end of block b of DECODE.BUF from state `s`. -/
def State.blockEnd (s : State) (b : Nat) : BlockEnd := (s.decodeBlocks b).st.decodeBlock (b * s.n)

/-- One block more: its entry is written, its count joins the total if it did not fail (R282). -/
theorem State.decodeBlocks_succ_eq (nb : Nat) (s : State) :
    s.decodeBlocks (nb + 1) =
      { st := (s.blockEnd nb).st.setBstat nb (bstatWord (s.blockEnd nb).res (s.blockEnd nb).ncorr)
        tot := (s.decodeBlocks nb).tot + if (s.blockEnd nb).res = .ok then (s.blockEnd nb).ncorr else 0
        nf := (s.decodeBlocks nb).nf + if (s.blockEnd nb).res = .ok then 0 else 1
        nc := (s.blockEnd nb).ncorr } := by
  have hend : (s.decodeBlocks nb).st.decodeBlock (nb * (s.decodeBlocks nb).st.n) = s.blockEnd nb := by
    rw [State.decodeBlocks_n, State.blockEnd]
  simp only [State.decodeBlocks_succ, bufTurn, hend]
  split <;> rfl

theorem State.blockEnd_run (s : State) (b : Nat) : BlockRun (b * s.n) (s.decodeBlocks b).st (s.blockEnd b) :=
  State.decodeBlock_run ..

theorem exec_decodeBuf {s : State} (hd : s.initDone = true) (hlen : BufLenOk s) :
    exec .decodeBuf s = .next (((s.decodeBlocks (s.bufLen.toNat / s.n)).record (s.bufLen.toNat / s.n)).complete
      (if (s.decodeBlocks (s.bufLen.toNat / s.n)).nf = 0 then .ok else .bufFail)) := by
  simp [exec, execDecodeBuf, hd, checkBufLen_eq_none.mpr hlen]

/-- NFAIL counts the failed blocks. -/
theorem State.decodeBlocks_nf (s : State) (nb : Nat) :
    (s.decodeBlocks nb).nf = ((List.range nb).filter fun b => decide ((s.blockEnd b).res ≠ .ok)).length := by
  induction nb with
  | zero => rfl
  | succ nb ih =>
    simp only [State.decodeBlocks_succ_eq, List.range_succ, List.filter_append, List.length_append, ← ih]
    by_cases hres : (s.blockEnd nb).res = .ok <;> simp [hres]

/-- TOTAL_CORR sums the blocks' counts: a failed block's is 0. -/
theorem State.decodeBlocks_tot {s : State} {nb : Nat}
    (hfail : ∀ b, b < nb → (s.blockEnd b).res ≠ .ok → (s.blockEnd b).ncorr = 0) :
    (s.decodeBlocks nb).tot = ((List.range nb).map fun b => (s.blockEnd b).ncorr).sum := by
  induction nb with
  | zero => rfl
  | succ nb ih =>
    simp only [State.decodeBlocks_succ_eq, List.range_succ, List.map_append, List.sum_append,
      ← ih fun b hb => hfail b (Nat.lt_succ_of_lt hb)]
    by_cases hres : (s.blockEnd nb).res = .ok
    · simp [hres]
    · simp [hres, hfail nb (Nat.lt_succ_self nb) hres]

theorem State.decodeBlocks_bstat_length (s : State) (nb : Nat) :
    (s.decodeBlocks nb).st.bstat.length = s.build.blkMax := by
  induction nb with
  | zero => exact List.length_replicate
  | succ nb ih =>
    rw [State.decodeBlocks_succ_eq, State.setBstat_bstat, List.length_set, (s.blockEnd_run nb).bstat, ih]

/-- The BSTAT entry of a block, 0 where no block is. -/
theorem State.decodeBlocks_bstat {s : State} {nb : Nat} (hnb : nb ≤ s.build.blkMax) (b : Nat) :
    (s.decodeBlocks nb).st.bstat.getD b 0#32 =
      if b < nb then bstatWord (s.blockEnd b).res (s.blockEnd b).ncorr else 0#32 := by
  induction nb with
  | zero =>
    rw [if_neg (Nat.not_lt_zero b), State.decodeBlocks_zero]
    by_cases hb : b < s.build.blkMax <;> simp [hb]
  | succ nb ih =>
    rw [State.decodeBlocks_succ_eq, State.setBstat_bstat]
    obtain rfl | hne := eq_or_ne nb b
    · have hlen : nb < (s.blockEnd nb).st.bstat.length := by
        rw [(s.blockEnd_run nb).bstat, State.decodeBlocks_bstat_length]
        exact hnb
      rw [getD_set_self _ hlen, if_pos (Nat.lt_succ_self nb)]
    · have hlt : b < nb + 1 ↔ b < nb := by omega
      rw [getD_set_other _ hne, (s.blockEnd_run nb).bstat, ih (Nat.le_of_succ_le hnb)]
      simp only [hlt]

/-- The blocks from b on leave what lies before them. -/
theorem State.read_decodeBlocks_before {s : State} {b nb a : Nat} (hb : b ≤ nb) (ha : a < b * s.n) :
    Memory.read (s.decodeBlocks nb).st.buf a = Memory.read (s.decodeBlocks b).st.buf a := by
  induction nb, hb using Nat.le_induction with
  | base => rfl
  | succ nb hb ih =>
    have hle : b * s.n ≤ nb * s.n := Nat.mul_le_mul_right _ hb
    rw [State.decodeBlocks_succ_eq, State.setBstat_buf, (s.blockEnd_run nb).read_other (.inl (by omega)), ih]

/-- The end of a block in BUF is what its bytes are after all blocks. -/
theorem State.read_decodeBlocks_block {s : State} {b nb k : Nat} (hb : b < nb) (hk : k < s.n) :
    Memory.read (s.decodeBlocks nb).st.buf (b * s.n + k) = Memory.read (s.blockEnd b).st.buf (b * s.n + k) := by
  have ha : b * s.n + k < (b + 1) * s.n := by
    rw [Nat.succ_mul]
    omega
  rw [State.read_decodeBlocks_before hb ha, State.decodeBlocks_succ_eq, State.setBstat_buf]

/-- The outcome of each block of DECODE.BUF. -/
theorem State.Inv.blockEnd_outcome {s : State} (h : s.Inv) (hd : s.initDone = true) {b : Nat}
    (hb : b * s.n ≤ s.build.bufBytes) : BlockOutcome (b * s.n) (s.decodeBlocks b).st (s.blockEnd b) :=
  (s.blockEnd_run b).outcome (h.decodeBlocks hd hb) ((congrArg Setup.initDone (s.decodeBlocks_setup b)).trans hd)

/-! ### A BSTAT entry as the host reads it (R64) -/

theorem Res.code_eq_zero {r : Res} : r.code.toNat = 0 ↔ r = .ok := by
  cases r <;> decide

/-- The three fields of an entry. -/
theorem bstatWord_fields (r : Res) {nc : Nat} (hnc : nc < 256) :
    2147483648 ≤ (bstatWord r nc).toNat ∧ (bstatWord r nc).toNat / 256 % 256 = nc ∧
      ((bstatWord r nc).toNat % 8 = 0 ↔ r = .ok) := by
  have hcode := r.code.isLt
  rw [toNat_bstatWord, ← Res.code_eq_zero]
  omega

/-! ### The outcome of DECODE.BUF -/

theorem State.Inv.blkMax_le {s : State} (h : s.Inv) : s.build.blkMax ≤ 256 := by
  have hlegal := h.build
  simp only [Build.legal, Bool.and_eq_true, decide_eq_true_eq] at hlegal
  exact hlegal.2.2

/-- What the blocks of a BUF_LEN that R283 accepts leave, as the host reads it from BUF and BSTAT. -/
structure BufOutcome (nb : Nat) (s : State) (p : BufAcc) : Prop where
  written : ∀ b, b < nb → 2147483648 ≤ (p.st.bstat.getD b 0#32).toNat
  unwritten : ∀ b, nb ≤ b → p.st.bstat.getD b 0#32 = 0#32
  nf : p.nf = ((List.range nb).filter fun b => decide ((p.st.bstat.getD b 0#32).toNat % 8 ≠ 0)).length
  tot : p.tot = ((List.range nb).map fun b => (p.st.bstat.getD b 0#32).toNat / 256 % 256).sum
  nc : p.nc = if nb = 0 then 0 else (p.st.bstat.getD (nb - 1) 0#32).toNat / 256 % 256
  decoded : ∀ b, b < nb → (p.st.bstat.getD b 0#32).toNat % 8 = 0 → Codeword s p.st.buf (b * s.n)
  failed : ∀ b, b < nb → (p.st.bstat.getD b 0#32).toNat % 8 ≠ 0 →
    (p.st.bstat.getD b 0#32).toNat / 256 % 256 = 0 ∧
      ∀ k, k < s.n → Memory.read p.st.buf (b * s.n + k) = Memory.read s.buf (b * s.n + k)
  count_le : ∀ b, b < nb → (p.st.bstat.getD b 0#32).toNat / 256 % 256 ≤ 127

theorem State.Inv.bufOutcome {s : State} (h : s.Inv) (hd : s.initDone = true) {nb : Nat} (hnb : nb ≤ s.build.blkMax)
    (hbytes : nb * s.n ≤ s.build.bufBytes) : BufOutcome nb s (s.decodeBlocks nb) := by
  have hout : ∀ b, b < nb → BlockOutcome (b * s.n) (s.decodeBlocks b).st (s.blockEnd b) := fun b hb =>
    h.blockEnd_outcome hd ((Nat.mul_le_mul_right _ (Nat.le_of_lt hb)).trans hbytes)
  have hcount : ∀ b, b < nb → (s.blockEnd b).ncorr ≤ 127 := fun b hb => by
    have hle := (hout b hb).ncorr_le
    have hnpar : (s.decodeBlocks b).st.npar < 256 := (s.decodeBlocks b).st.cfgNpar.isLt
    omega
  have hentry : ∀ b, b < nb → (s.decodeBlocks nb).st.bstat.getD b 0#32 =
      bstatWord (s.blockEnd b).res (s.blockEnd b).ncorr := fun b hb => by
    rw [State.decodeBlocks_bstat hnb, if_pos hb]
  have hfields : ∀ b, b < nb → 2147483648 ≤ ((s.decodeBlocks nb).st.bstat.getD b 0#32).toNat ∧
      ((s.decodeBlocks nb).st.bstat.getD b 0#32).toNat / 256 % 256 = (s.blockEnd b).ncorr ∧
      (((s.decodeBlocks nb).st.bstat.getD b 0#32).toNat % 8 = 0 ↔ (s.blockEnd b).res = .ok) := fun b hb => by
    rw [hentry b hb]
    exact bstatWord_fields _ (Nat.lt_of_le_of_lt (hcount b hb) (by decide))
  exact {
    written := fun b hb => (hfields b hb).1
    unwritten := fun b hb => by rw [State.decodeBlocks_bstat hnb, if_neg (Nat.not_lt.mpr hb)]
    nf := by
      rw [State.decodeBlocks_nf]
      refine congrArg List.length (List.filter_congr fun b hb => ?_)
      rw [decide_eq_decide, not_iff_not]
      exact (hfields b (List.mem_range.mp hb)).2.2.symm
    tot := by
      rw [State.decodeBlocks_tot fun b hb hres => ((hout b hb).failed hres).1]
      exact congrArg List.sum (List.map_congr_left fun b hb => (hfields b (List.mem_range.mp hb)).2.1.symm)
    nc := by
      cases nb with
      | zero => rfl
      | succ nb =>
        rw [if_neg (Nat.succ_ne_zero nb), Nat.add_sub_cancel, (hfields nb (Nat.lt_succ_self nb)).2.1,
          State.decodeBlocks_succ_eq]
    decoded := fun b hb hres => by
      have hcode := (hout b hb).decoded ((hfields b hb).2.2.mp hres)
      rw [codeword_of_setup_eq (s.decodeBlocks_setup b)] at hcode
      exact (codeword_congr (h.logs hd) fun k hk => State.read_decodeBlocks_block hb hk).mpr hcode
    failed := fun b hb hres => by
      obtain ⟨hnc, hbuf⟩ := (hout b hb).failed (mt (hfields b hb).2.2.mpr hres)
      refine ⟨(hfields b hb).2.1.trans hnc, fun k hk => ?_⟩
      rw [State.read_decodeBlocks_block hb hk, hbuf, State.read_decodeBlocks_other s (Nat.le_add_right ..)]
    count_le := fun b hb => (hfields b hb).2.1.trans_le (hcount b hb) }

theorem sum_map_range_le {f : Nat → Nat} {c nb : Nat} (h : ∀ b, b < nb → f b ≤ c) :
    ((List.range nb).map f).sum ≤ nb * c := by
  have hsum := List.sum_le_card_nsmul ((List.range nb).map f) c fun x hx => by
    obtain ⟨b, hb, rfl⟩ := List.mem_map.mp hx
    exact h b (List.mem_range.mp hb)
  simpa using hsum

/-- The counts fit the registers that take them: BLK_MAX is at most 256 and a block's count at most 127. -/
theorem BufOutcome.counts_lt {nb : Nat} {s : State} {p : BufAcc} (h : BufOutcome nb s p) (hnb : nb ≤ 256) :
    p.nf < 2 ^ 16 ∧ p.tot < 2 ^ 16 ∧ p.nc < 2 ^ 8 := by
  have hnf : p.nf ≤ nb := by
    rw [h.nf]
    exact (List.length_filter_le ..).trans (by simp)
  have htot : p.tot ≤ nb * 127 := by
    rw [h.tot]
    exact sum_map_range_le h.count_le
  refine ⟨by omega, by omega, ?_⟩
  rw [h.nc]
  split <;> omega

/-- Settles O48: the outcome of the blocks, with counts that fit their registers. -/
theorem decodeBufOutcome : Obligations.DecodeBufOutcome := by
  intro s h hd hlen n nb
  have hexec : exec .decodeBuf s = .next (((s.decodeBlocks nb).record nb).complete
      (if (s.decodeBlocks nb).nf = 0 then .ok else .bufFail)) := exec_decodeBuf hd hlen
  have hends := exec_ends hexec
  have hflags := State.flags_of_unstaged (s.decodeBlocks_unstaged nb)
  have hout : BufOutcome nb s (s.decodeBlocks nb) :=
    h.bufOutcome hd hlen.2.2 ((Nat.div_mul_le_self ..).trans hlen.1)
  have hnb : nb ≤ 256 := Nat.le_trans hlen.2.2 h.blkMax_le
  obtain ⟨hnf, htot, hnc⟩ := hout.counts_lt hnb
  clear_value nb
  generalize s.decodeBlocks nb = p at *
  have hreg : ∀ {w v : Nat}, v < 2 ^ w → (BitVec.ofNat w v).toNat = v := fun hv =>
    BitVec.toNat_ofNat .. |>.trans (Nat.mod_eq_of_lt hv)
  have hzero : p.nf = 0 ↔ BitVec.ofNat 16 p.nf = 0#16 := by
    rw [← BitVec.toNat_inj, hreg hnf, BitVec.toNat_zero]
  refine ⟨_, hexec, hends.frame, rfl, hflags.1, congrArg (· ||| intDone) hflags.2.1, hreg (by omega), hout.written,
    hout.unwritten, (hreg hnf).trans hout.nf, (hreg htot).trans hout.tot, (hreg hnc).trans hout.nc,
    if_congr hzero rfl rfl, hout.decoded, hout.failed, fun a ha => hends.read_other (Nat.not_lt.mpr ha)⟩

end Sys2Proof.Machine
end

section
/-! How a command ends, beside its own writes: BUSY, DONE and the error flags (20_memory.md R103, R322), and the tables
and the generator, which are INIT's alone (R109). -/

open Sys2Proof.Claims

namespace Sys2Proof.Machine

/-- Every end clears BUSY (R321, R322). -/
theorem Ends.idle {i : Instr} {s t : State} (he : Ends i s t) : t.running = none := by
  cases he <;> rfl

/-- An end that is not a rejection sets DONE and no other flag (R322). -/
theorem Ends.flags_of_not_rejected {i : Instr} {s t : State} (he : Ends i s t) (hres : t.res ≠ .rejected) :
    t.err = s.err ∧ t.intStat = s.intStat ||| intDone := by
  cases he with
  | rejected | failedBuild => exact absurd rfl hres
  | @decodeBlk _ blk =>
    obtain ⟨herr, hstat, -⟩ := State.flags_of_unstaged (s.decodeBlock_unstaged (s.blockBase blk))
    exact ⟨herr, congrArg (· ||| intDone) hstat⟩
  | decodeBuf =>
    obtain ⟨herr, hstat, -⟩ := State.flags_of_unstaged (s.decodeBlocks_unstaged (s.bufLen.toNat / s.n))
    exact ⟨herr, congrArg (· ||| intDone) hstat⟩
  | _ => exact ⟨rfl, rfl⟩

/-- Settles O13: the flags of every way to end. -/
theorem completionFlags : Obligations.CompletionFlags := fun _ _ _ h =>
  have he := exec_ends h
  ⟨he.idle, he.done, he.flags_of_not_rejected⟩

/-- The frame of a command other than INIT holds the tables and the generator (R73). -/
theorem Ends.keeps_tables {i : Instr} {s t : State} (he : Ends i s t) (hi : i ≠ .init) :
    t.tab = s.tab ∧ t.gen = s.gen := by
  have hframe : ∀ {u : State}, t = u → u.tab = s.tab → u.gen = s.gen → t.tab = s.tab ∧ t.gen = s.gen :=
    fun htu htab hgen => htu ▸ ⟨htab, hgen⟩
  cases i with
  | init => exact absurd rfl hi
  | _ => exact hframe he.frame rfl rfl

/-- Settles O21: by the command's frame, and for INIT by the setup that no command changes once INIT_DONE = 1. -/
theorem onlyInitWritesTables : Obligations.OnlyInitWritesTables := by
  rintro i s t h (hi | hd)
  · exact (exec_ends h).keeps_tables hi
  · obtain ⟨-, -, -, -, -, -, htab, hgen⟩ := State.setup_eq_iff.mp ((exec_keepsSetup h).setup hd)
    exact ⟨htab, hgen⟩

end Sys2Proof.Machine
end

section
/-! The command SYND (41_generator_syndrome.md R193, R194). -/

open Sys2Proof.Claims

namespace Sys2Proof.Machine

theorem exec_synd {s : State} {blk : BitVec 16} (hd : s.initDone = true) (hblk : InRange blk s) :
    exec (.synd blk) s = .next ((s.syndBody (s.blockBase blk)).complete .ok) := by
  simp [exec, execSynd, hd, checkBlock_eq_none.mpr hblk]

/-- Entry j of SYN is syndrome j of the block, by powers; the entries from NPAR up are 0 (R193, R194). -/
theorem State.Inv.rd_syndBody_syn {s : State} (h : s.Inv) (hd : s.initDone = true) (base j : Nat) :
    rd (s.syndBody base).syn j = if j < s.npar then syndrome s.tab s.fcr s.n s.buf base j else 0#8 := by
  have hsize : j < s.npar → j < s.build.nparMax := fun hj => Nat.lt_of_lt_of_le hj (h.npar_le hd)
  rw [State.syndBody, rd_fillUsed, if_congr (and_iff_right_of_imp hsize) rfl rfl, State.blockBytes,
    syndromeOf_bytes (h.logs hd)]

/-- Settles O35: Horner's rule gives the sum by powers, for each syndrome and for SYN_ZERO. -/
theorem syndComputesSyndromes : Obligations.SyndComputesSyndromes := by
  intro s blk h hd hblk
  have hsyn := h.rd_syndBody_syn hd (s.blockBase blk)
  exact ⟨_, exec_synd hd hblk, rfl, length_fillUsed .., fun j hj => (hsyn j).trans (if_pos hj),
    fun j hj => (hsyn j).trans (if_neg (Nat.not_lt.mpr hj)), syndromesZero_iff (h.logs hd) s.buf _⟩

end Sys2Proof.Machine
end

section
/-! Host accesses beside a running command (20_memory.md R91, R92, R101, R103): the order of the two in a cycle, the
unsupported accesses, and the writes that a running command refuses. -/

open Sys2Proof.Claims

namespace Sys2Proof.Machine

/-! ### The completing cycle (R103, log 2) -/

/-- The command engine at the completion point of a legal word is the command (R128). -/
theorem engineCycle_decoded {was : Option Nat} {u : State} {i : Instr} (hwas : was = some 0)
    (hdec : decode u.cmd = .ok i) : engineCycle was u = exec i u := by
  rw [hwas, engineCycle, runCommand, hdec]

/-- No host access reaches CMD while a command runs (R101). -/
theorem hostWrite_cmd_of_busy {s : State} (hbusy : s.busy = true) (addr : Addr) (size : Size) (v : Word) :
    (s.hostWrite addr size v).cmd = s.cmd := by
  simp only [State.hostWrite, hbusy, if_true]
  split
  · cases locate s.build addr <;> rfl
  · rfl

theorem hostRead_cmd (addr : Addr) (size : Size) (s : State) : (s.hostRead addr size).cmd = s.cmd :=
  (congrArg State.cmd (hostRead_frame addr size s) :)

theorem step_of_idle {s : State} {rest : List HostEvent} (h : s.pending = .idle :: rest) :
    step s = engineCycle s.running { s with pending := rest } := by
  unfold step cycle
  rw [h]

theorem step_of_poll {s : State} {rest : List HostEvent} (h : s.pending = .poll :: rest) :
    step s = engineCycle s.running (State.hostRead statusAddr .word { s with pending := s.afterPoll rest }) := by
  unfold step cycle
  rw [h]
  rfl

/-- While a command runs, a turn of the WAIT loop reads STATUS and stays the host's next event (R130, log 19). -/
theorem step_poll_busy {s : State} {k : Nat} {rest : List HostEvent} (hbusy : s.running = some k)
    (h : s.pending = .poll :: rest) : step s = engineCycle (some k) (s.hostRead statusAddr .word) := by
  have hrun : s.busy = true := congrArg Option.isSome hbusy
  have hstay : s.afterPoll rest = s.pending := by rw [State.afterPoll, if_pos hrun, h]
  rw [step_of_poll h, hstay]
  exact congrArg (engineCycle · _) hbusy

/-- With the core idle, the host's last turn of the WAIT loop reads STATUS. -/
theorem step_poll_idle {s : State} {rest : List HostEvent} (hidle : s.running = none)
    (h : s.pending = .poll :: rest) : step s = .next { s with pending := rest, rdata := s.statusWord } := by
  have hnot : s.busy = false := congrArg Option.isSome hidle
  have hrest : s.afterPoll rest = rest := by rw [State.afterPoll, hnot, if_neg Bool.false_ne_true]
  rw [step_of_poll h, hrest, engineCycle_idle hidle, hostRead_defined rfl rfl]
  rfl

/-- Settles O5: the host's event of the cycle leaves CMD alone, so the engine runs the word that stood there. -/
theorem stepRunsDecodedCommand : Obligations.StepRunsDecodedCommand := by
  intro s i hrun hdec
  refine ⟨fun h => ?_, fun rest h => ?_, fun addr size rest h => ?_, fun addr size v rest h => ?_, fun rest h => ?_⟩
  · rw [step_of_pending_nil h, engineCycle_decoded hrun hdec]
  · rw [step_of_idle h, engineCycle_decoded hrun]
    exact hdec
  · rw [step_of_read h, engineCycle_decoded hrun]
    rwa [hostRead_cmd]
  · rw [step_of_write h, engineCycle_decoded hrun]
    rwa [hostWrite_cmd_of_busy (s := { s with pending := rest }) (congrArg Option.isSome hrun)]
  · rw [step_poll_busy hrun h, engineCycle_decoded rfl]
    · rfl
    · rwa [hostRead_cmd]

/-! ### Unsupported accesses (R92) -/

theorem supported_eq_false {addr : Addr} {size : Size} (h : size ≠ .word ∨ addr.toNat % 4 ≠ 0) :
    supported addr size = false := by
  simpa [supported, imp_iff_not_or] using h

theorem hostWrite_unsupported {addr : Addr} {size : Size} (h : size ≠ .word ∨ addr.toNat % 4 ≠ 0) (v : Word)
    (s : State) : s.hostWrite addr size v = flaggedWith 0x100#9 s := by
  rw [State.hostWrite, supported_eq_false h]
  rfl

theorem hostRead_unsupported {addr : Addr} {size : Size} (h : size ≠ .word ∨ addr.toNat % 4 ≠ 0) (s : State) :
    s.hostRead addr size = flaggedWith 0x100#9 { s with rdata := 0#32 } := by
  rw [State.hostRead, supported_eq_false h]
  rfl

/-- A command lets no ERR bit fall: rejected, it sets one more (R321, R322). -/
theorem Ends.keeps_err {i : Instr} {s t : State} (he : Ends i s t) {n : Nat} (hn : s.err.getLsbD n = true) :
    t.err.getLsbD n = true := by
  by_cases hres : t.res = .rejected
  · have herr : ∃ m, t.err = s.err ||| m := by
      obtain ⟨c, rfl⟩ | rfl := he.of_rejected hres
      · exact ⟨c.mask, rfl⟩
      · exact ⟨Cause.cfg.mask, rfl⟩
    obtain ⟨m, hm⟩ := herr
    rw [hm, BitVec.getLsbD_or, hn, Bool.true_or]
  · rwa [(he.flags_of_not_rejected hres).1]

theorem engineCycle_keeps_err {was : Option Nat} {s t : State} (h : engineCycle was s = .next t) {n : Nat}
    (hn : s.err.getLsbD n = true) : t.err.getLsbD n = true := by
  obtain ⟨-, rfl⟩ | ⟨-, hrun⟩ | ⟨k, -, rfl⟩ := engineCycle_cases h
  · exact hn
  · obtain ⟨i, -, hexec⟩ | ⟨e, -, rfl⟩ := runCommand_cases hrun
    · exact (exec_ends hexec).keeps_err hn
    · rw [State.reject_err, BitVec.getLsbD_or, hn, Bool.true_or]
  · exact hn

/-- The flags of an unsupported access stand at the end of the cycle, whatever the command engine does in it. -/
theorem bus_flags_after_engine {was : Option Nat} {s t : State}
    (h : engineCycle was (flaggedWith 0x100#9 s) = .next t) :
    t.err.getLsbD 8 = true ∧ t.intStat.getLsbD 1 = true :=
  ⟨engineCycle_keeps_err h (by simp [flaggedWith]),
    (engineCycle_keepsInterrupt h).intStat 1 (by simp [flaggedWith])⟩

/-- Settles O50: the access sets its flags first, and the command engine's action after it lets none fall. -/
theorem unsupportedAccess : Obligations.UnsupportedAccess := by
  intro s addr size rest hbad
  refine ⟨fun v h => ?_, fun h => ?_⟩
  · have hstep := step_of_write h
    rw [hostWrite_unsupported hbad] at hstep
    exact ⟨fun hidle => hstep.trans (engineCycle_idle hidle _), fun k hbusy => hstep.trans (by rw [hbusy]; rfl),
      fun t ht => bus_flags_after_engine (hstep ▸ ht)⟩
  · have hstep := step_of_read h
    rw [hostRead_unsupported hbad] at hstep
    refine ⟨fun hidle => hstep.trans (engineCycle_idle hidle _), fun k hbusy => hstep.trans (by rw [hbusy]; rfl),
      fun t ht => ?_⟩
    have hengine := hstep ▸ ht
    obtain ⟨herr, hstat⟩ := bus_flags_after_engine hengine
    obtain ⟨-, hrdata, -⟩ := engineCycle_keeps_port hengine
    exact ⟨herr, hstat, hrdata⟩

/-! ### Writes while a command runs (R101) -/

theorem locate_buf (b : Build) {addr : Addr} {k : Nat} (ha : addr.toNat = 0x4000 + k) (hk : k < b.bufBytes) :
    locate b addr = .bufWord k := by
  unfold locate
  simp only []
  rw [if_neg (by omega), if_neg (by omega), if_pos (by omega), show addr.toNat - 0x4000 = k by omega]

/-- A target that R101 names refuses the write with BUSY_WR, never with LOCKED (R320). -/
theorem writeBusy_of_busyTarget {b : Build} {addr : Addr} (h : BusyTarget b addr) (v : Word) (s : State) :
    s.writeBusy (locate b addr) v = flaggedWith 0x010#9 s := by
  rcases h with hreg | ⟨hlo, hhi⟩
  · have hlocs : addr.toNat < 0x400 ∧
        locateReg addr.toNat ∈ [Loc.cmd, .cfgN, .cfgNpar, .cfgPrim, .cfgFcr, .bufLen] := by
      generalize addr.toNat = a at hreg ⊢
      revert a
      decide
    rw [locate_reg b hlocs.1]
    generalize locateReg addr.toNat = loc at hlocs
    simp only [List.mem_cons, List.not_mem_nil, or_false] at hlocs
    rcases hlocs.2 with rfl | rfl | rfl | rfl | rfl | rfl <;> rfl
  · rw [locate_buf b (k := addr.toNat - 0x4000) (by omega) (by omega)]
    rfl

/-- Any other register but ERR, INT_STAT and INT_EN ignores the write. -/
theorem writeBusy_locateReg_ignored {a : Nat} (hbusy : a ∉ [0x004, 0x018, 0x01C, 0x020, 0x024, 0x028])
    (hctl : a ∉ [0x00C, 0x010, 0x014]) (v : Word) (s : State) : s.writeBusy (locateReg a) v = s := by
  unfold locateReg
  split
  case h_2 | h_7 | h_8 | h_9 | h_10 | h_11 => exact absurd (by decide) hbusy
  case h_4 | h_5 | h_6 => exact absurd (by decide) hctl
  all_goals rfl

/-- A write to an array's or table's window is ignored. -/
theorem writeBusy_locateWindow (w e : Nat) (v : Word) (s : State) : s.writeBusy (locateWindow w e) v = s := by
  unfold locateWindow
  split <;> rfl

/-- A target that R101 does not name, ERR, INT_STAT and INT_EN apart, ignores the write. -/
theorem writeBusy_of_not_busyTarget {b : Build} {addr : Addr} (h : ¬ BusyTarget b addr)
    (hctl : addr.toNat ∉ [0x00C, 0x010, 0x014]) (v : Word) (s : State) : s.writeBusy (locate b addr) v = s := by
  obtain ⟨hreg, hbuf⟩ := not_or.mp h
  by_cases hlow : addr.toNat < 0x400
  · rw [locate_reg b hlow, writeBusy_locateReg_ignored hreg hctl]
  by_cases hwin : addr.toNat < 0x4000
  · rw [locate_window b (Nat.le_of_not_lt hlow) hwin, writeBusy_locateWindow]
  · rw [locate_reserved (.inr (.inr (by omega)))]
    rfl

/-- Settles O51: the write comes first in its cycle, target by target, then the command engine's action. -/
theorem writesWhileBusy : Obligations.WritesWhileBusy := by
  intro s k v rest hbusy
  simp only [← extract_low]
  refine ⟨fun addr ha h => ⟨fun htarget => ?_, fun htarget hctl => ?_⟩, step_write_busy hbusy rfl,
    step_write_busy hbusy rfl, step_write_busy hbusy rfl, fun addr size hbad h => ?_⟩
  · rw [step_write_busy hbusy ha h, writeBusy_of_busyTarget htarget]
  · rw [step_write_busy hbusy ha h, writeBusy_of_not_busyTarget htarget hctl]
  · rw [step_of_write h, hostWrite_unsupported hbad, hbusy, engineCycle_some]

end Sys2Proof.Machine
end

section
/-! BUF as the host sees it: its words pack four bytes little-endian (20_memory.md R93). -/

open Sys2Proof.Claims

namespace Sys2Proof.Machine

/-- Byte i of a written word is BUF[k + i]. -/
theorem read_bufWriteWord_self {m : Memory} (hwf : Memory.wf m = true) (k : Nat) (v : Word) {i : Nat} (hi : i < 4) :
    Memory.read (bufWriteWord m k v) (k + i) = v.extractLsb' (8 * i) 8 := by
  rw [bufWriteWord, Memory.read_writeAll_self _ k i hwf (by simpa using hi)]
  match i with
  | 0 | 1 | 2 | 3 => rfl

/-- BUF[k + i] is byte i of the word that is read. -/
theorem extract_bufWordAt (m : Memory) (k : Nat) {i : Nat} (hi : i < 4) :
    (bufWordAt m k).extractLsb' (8 * i) 8 = Memory.read m (k + i) := by
  have h0 := (Memory.read m k).isLt
  have h1 := (Memory.read m (k + 1)).isLt
  have h2 := (Memory.read m (k + 2)).isLt
  have h3 := (Memory.read m (k + 3)).isLt
  apply BitVec.eq_of_toNat_eq
  rw [BitVec.extractLsb'_toNat, Nat.shiftRight_eq_div_pow, toNat_bufWordAt]
  match i with
  | 0 => simp only [Nat.mul_zero, Nat.pow_zero, Nat.add_zero]; omega
  | 1 | 2 | 3 => omega

/-- Settles O56: a write and a read of the word, byte by byte. -/
theorem bufWordsLittleEndian : Obligations.BufWordsLittleEndian := by
  intro s addr w rest h hidle haddr hw
  have ha : addr.toNat % 4 = 0 := by omega
  have hloc := locate_buf s.build haddr hw
  refine ⟨fun v hwrite => ⟨{ s with pending := rest, buf := bufWriteWord s.buf (4 * w) v }, ?_, rfl,
    fun i hi => read_bufWriteWord_self h.bufWf _ v hi, fun a => read_bufWriteWord_other v⟩,
    fun hread => ⟨{ s with pending := rest, rdata := bufWordAt s.buf (4 * w) }, ?_, rfl,
      fun i hi => extract_bufWordAt s.buf _ hi⟩⟩
  · rw [step_write_idle hidle ha hwrite, hloc]
    rfl
  · rw [step_read_idle hidle ha hread, hloc]
    rfl

end Sys2Proof.Machine
end

section
/-! The host's WAIT loop (30_encoding.md R130, 20_memory.md R103, log 2, log 19): it turns in every cycle of a command
and once more after it. -/

open Sys2Proof.Claims

namespace Sys2Proof.Machine

/-- A run of one step more. -/
theorem run_succ {M : Host.Core} {s t : M.State} (h : M.step s = .next t) (k : Nat) : M.run (k + 1) s = M.run k t := by
  rw [Host.Core.run, h]

/-- No command takes an event from the host. -/
theorem Ends.keeps_pending {i : Instr} {s t : State} (he : Ends i s t) : t.pending = s.pending := by
  have hframe : ∀ {u : State}, t = u → u.pending = s.pending → t.pending = s.pending := fun htu hu => htu ▸ hu
  cases i <;> exact hframe he.frame rfl

/-- A command's end at its completion point, that of an illegal word too: BUSY falls and DONE is set, and the host's
events stay. -/
theorem runCommand_ends (s : State) :
    ∃ t, runCommand s = .next t ∧ t.running = none ∧ t.pending = s.pending ∧ t.intStat.getLsbD 0 = true := by
  cases hdec : decode s.cmd with
  | ok i =>
    obtain ⟨t, hexec⟩ := exec_next i s
    have hrun : runCommand s = .next t := by rw [runCommand, hdec]; exact hexec
    have he := exec_ends hexec
    exact ⟨t, hrun, he.idle, he.keeps_pending, he.done⟩
  | error e =>
    have hrun : runCommand s = .next (s.reject .illegal) := by rw [runCommand, hdec]
    exact ⟨_, hrun, rfl, rfl, runCommand_done hrun⟩

theorem hostRead_pending (addr : Addr) (size : Size) (s : State) : (s.hostRead addr size).pending = s.pending :=
  (congrArg State.pending (hostRead_frame addr size s) :)

/-- BUSY is bit 0 of STATUS (R35). -/
theorem statusWord_busy (s : State) : s.statusWord.getLsbD 0 = s.busy := by
  refine BitVec.getLsbD_append.trans ?_
  simp [bit1]

/-- Settles O9, by induction on the cycles to go: each turn before the completion point reads STATUS and takes one
cycle, the turn at it still reads BUSY = 1, and the next one reads BUSY = 0. -/
theorem waitLoopEnds : Obligations.WaitLoopEnds := by
  intro k
  induction k with
  | zero =>
    intro s rest hbusy h
    obtain ⟨t, hrun, hidle, hpending, hdone⟩ := runCommand_ends (s.hostRead statusAddr .word)
    have hpoll : t.pending = .poll :: rest := by rw [hpending, hostRead_pending, h]
    refine ⟨{ t with pending := rest, rdata := t.statusWord }, ?_, rfl, hidle, ?_, hdone⟩
    · exact (run_succ (M := Sys2Proof.core) ((step_poll_busy hbusy h).trans hrun) 1).trans
        (run_succ (M := Sys2Proof.core) (step_poll_idle hidle hpoll) 0)
    · exact (statusWord_busy t).trans (congrArg Option.isSome hidle)
  | succ k ih =>
    intro s rest hbusy h
    obtain ⟨t, hrun, ht⟩ := ih { s.hostRead statusAddr .word with running := some k } rest rfl
      ((hostRead_pending ..).trans h)
    exact ⟨t, (run_succ (M := Sys2Proof.core) (step_poll_busy hbusy h) (k + 2)).trans hrun, ht⟩

end Sys2Proof.Machine
end

section
/-! The decoder against the encoder (30_encoding.md R120 to R128): which word a command has, which words are illegal, and
what an illegal word does. -/

open Sys2Proof.Claims

namespace Sys2Proof.Machine

/-! ### The decoder on the encoder's words -/

/-- A word is a command's when the opcode map selects the command and R128's later checks pass. -/
theorem decode_eq_ok {w : Word} {i : Instr} :
    decode w = .ok i ↔
      opcodeMap (fieldOpc w) (fieldA w) (fieldB w) (fieldBlk w) = some i ∧ fieldRsv i.format w = 0 ∧
        ¬ (fieldOpc w = 0x13#8 ∧ fieldB w ≠ 0#8) := by
  unfold decode
  cases opcodeMap (fieldOpc w) (fieldA w) (fieldB w) (fieldBlk w) with
  | none => simp
  | some j =>
    simp only []
    split_ifs with hrsv hinv
    · exact ⟨nofun, fun ⟨hj, hi, _⟩ => absurd (Option.some.inj hj ▸ hi) hrsv⟩
    · exact ⟨nofun, fun ⟨_, _, hnot⟩ => absurd hinv hnot⟩
    · simp only [Except.ok.injEq, Option.some.injEq, hinv, not_false_eq_true, and_true, iff_self_and]
      exact fun hj => hj ▸ not_not.mp hrsv

theorem opcodeMap_encode (i : Instr) :
    opcodeMap i.opcode (fieldA (encode i)) (fieldB (encode i)) (fieldBlk (encode i)) = some i := by
  cases i with
  | nop => exact Laws.OpcodeMap.nop
  | init => exact Laws.OpcodeMap.init
  | gfAdd a b => exact Laws.OpcodeMap.gfAdd a b
  | gfMul a b => exact Laws.OpcodeMap.gfMul a b
  | gfDiv a b => exact Laws.OpcodeMap.gfDiv a b
  | gfInv a => exact Laws.OpcodeMap.gfInv a
  | gfPow a e => exact Laws.OpcodeMap.gfPow a e
  | synd blk => exact Laws.OpcodeMap.synd blk
  | bm => exact Laws.OpcodeMap.bm
  | chien => exact Laws.OpcodeMap.chien
  | forney => exact Laws.OpcodeMap.forney
  | correct blk => exact Laws.OpcodeMap.correct blk
  | decodeBlk blk => exact Laws.OpcodeMap.decodeBlk blk
  | decodeBuf => exact Laws.OpcodeMap.decodeBuf

theorem fieldRsv_n (w : Word) : fieldRsv .n w = w.toNat / 256 := by
  have := w.isLt
  simp only [fieldRsv, BitVec.extractLsb'_toNat, Nat.shiftRight_eq_div_pow]
  omega

theorem fieldRsv_g (w : Word) : fieldRsv .g w = w.toNat / 16777216 := by
  have := w.isLt
  simp only [fieldRsv, BitVec.extractLsb'_toNat, Nat.shiftRight_eq_div_pow]
  omega

theorem fieldRsv_b (w : Word) : fieldRsv .b w = w.toNat / 16777216 := fieldRsv_g w

theorem fieldRsv_wordN (opc : Byte) : fieldRsv .n (wordN opc) = 0 := by
  have := opc.isLt
  rw [fieldRsv_n, toNat_wordN]
  omega

theorem fieldRsv_wordG (opc a b : Byte) : fieldRsv .g (wordG opc a b) = 0 := by
  have := opc.isLt
  have := a.isLt
  have := b.isLt
  rw [fieldRsv_g, toNat_wordG]
  omega

theorem fieldRsv_wordB (opc : Byte) (blk : BitVec 16) : fieldRsv .b (wordB opc blk) = 0 := by
  have := opc.isLt
  have := blk.isLt
  rw [fieldRsv_b, toNat_wordB]
  omega

theorem fieldRsv_encode (i : Instr) : fieldRsv i.format (encode i) = 0 := by
  cases i with
  | nop | init | bm | chien | forney | decodeBuf => exact fieldRsv_wordN _
  | gfAdd | gfMul | gfDiv | gfInv | gfPow => exact fieldRsv_wordG _ _ _
  | synd | correct | decodeBlk => exact fieldRsv_wordB _ _

/-- GF.INV's is the only command with opcode 0x13, and its word has B = 0. -/
theorem fieldB_encode_of_inv {i : Instr} (h : i.opcode = 0x13#8) : fieldB (encode i) = 0#8 := by
  cases i with
  | gfInv a => exact fieldB_wordG _ _ _
  | _ => exact absurd h nofun

theorem decode_encode (i : Instr) : decode (encode i) = .ok i := by
  refine decode_eq_ok.mpr ⟨?_, fieldRsv_encode i, ?_⟩
  · rw [fieldOpc_encode, opcodeMap_encode]
  · rw [fieldOpc_encode]
    exact fun ⟨hopc, hb⟩ => hb (fieldB_encode_of_inv hopc)

/-! ### A word from its fields -/

theorem wordN_fields {w : Word} (h : fieldRsv .n w = 0) : wordN (fieldOpc w) = w := by
  rw [fieldRsv_n] at h
  apply BitVec.eq_of_toNat_eq
  rw [toNat_wordN, toNat_fieldOpc]
  omega

theorem wordG_fields {w : Word} (h : fieldRsv .g w = 0) : wordG (fieldOpc w) (fieldA w) (fieldB w) = w := by
  rw [fieldRsv_g] at h
  apply BitVec.eq_of_toNat_eq
  rw [toNat_wordG, toNat_fieldOpc, toNat_fieldA, toNat_fieldB]
  omega

theorem wordB_fields {w : Word} (h : fieldRsv .b w = 0) : wordB (fieldOpc w) (fieldBlk w) = w := by
  rw [fieldRsv_b] at h
  apply BitVec.eq_of_toNat_eq
  rw [toNat_wordB, toNat_fieldOpc, toNat_fieldBlk]
  omega

/-- The opcode map selects a command by its opcode alone. -/
theorem opcode_of_opcodeMap {opc a b : Byte} {blk : BitVec 16} {i : Instr} (h : opcodeMap opc a b blk = some i) :
    opc = i.opcode := by
  unfold opcodeMap at h
  split at h
  case h_15 => cases h
  all_goals
    cases h
    exact BitVec.eq_of_toNat_eq ‹_›

/-- Only the command's own word decodes to it: the opcode fixes the command, its fields the operands, and RSV = 0 the
rest. -/
theorem encode_of_decode {w : Word} {i : Instr} (h : decode w = .ok i) : encode i = w := by
  obtain ⟨hmap, hrsv, hinv⟩ := decode_eq_ok.mp h
  have hopc := opcode_of_opcodeMap hmap
  rw [hopc] at hmap
  cases i with
  | nop | init | bm | chien | forney | decodeBuf =>
    exact (congrArg wordN hopc).symm.trans (wordN_fields hrsv)
  | gfAdd | gfMul | gfDiv | gfPow =>
    cases hmap
    exact (congrArg (wordG · _ _) hopc).symm.trans (wordG_fields hrsv)
  | gfInv =>
    cases hmap
    have hb : fieldB w = 0#8 := not_not.mp fun hb => hinv ⟨hopc, hb⟩
    exact (congrArg₂ (wordG · _ ·) hopc hb).symm.trans (wordG_fields hrsv)
  | synd | correct | decodeBlk =>
    cases hmap
    exact (congrArg (wordB · _) hopc).symm.trans (wordB_fields hrsv)

/-- Settles O1: a command's word passes every check of the decoder, and a word that passes them is put together from the
fields the decoder read. -/
theorem decodeIffEncode : Obligations.DecodeIffEncode := fun _ i =>
  ⟨encode_of_decode, fun h => h ▸ decode_encode i⟩

/-! ### Illegal words (R126) -/

/-- The opcodes that R125 does not list are the reserved ones of R126. -/
theorem illegalWord_of_opcodeMap_none {w : Word}
    (h : opcodeMap (fieldOpc w) (fieldA w) (fieldB w) (fieldBlk w) = none) : IllegalWord w := by
  unfold opcodeMap at h
  split at h
  case h_15 =>
    simp only [imp_false, toNat_fieldOpc] at *
    unfold IllegalWord
    omega
  all_goals cases h

/-- A word with a command's opcode is illegal by its reserved bits, those of the command's format, or by GF.INV's B. -/
theorem illegalWord_iff_of_opcode {w : Word} {i : Instr} (h : fieldOpc w = i.opcode) :
    IllegalWord w ↔ fieldRsv i.format w ≠ 0 ∨ (fieldOpc w = 0x13#8 ∧ fieldB w ≠ 0#8) := by
  have hopc : w.toNat % 256 = i.opcode.toNat := by rw [← toNat_fieldOpc, h]
  have hb : fieldB w ≠ 0#8 ↔ w.toNat / 65536 % 256 ≠ 0 := by
    rw [← toNat_fieldB, ne_eq, ← BitVec.toNat_inj]
    rfl
  rw [h, hb]
  cases i with
  | nop | init | bm | chien | forney | decodeBuf =>
    rw [Instr.format, fieldRsv_n]
    simp [IllegalWord, hopc, Instr.opcode]
  | gfAdd | gfMul | gfDiv | gfInv | gfPow =>
    rw [Instr.format, fieldRsv_g]
    simp [IllegalWord, hopc, Instr.opcode]
  | synd | correct | decodeBlk =>
    rw [Instr.format, fieldRsv_b]
    simp [IllegalWord, hopc, Instr.opcode]

/-- The cases of R126 are the checks of R128 that fail. -/
theorem illegalWord_iff (w : Word) : IllegalWord w ↔ ∀ i, decode w ≠ .ok i := by
  cases hmap : opcodeMap (fieldOpc w) (fieldA w) (fieldB w) (fieldBlk w) with
  | none => exact iff_of_true (illegalWord_of_opcodeMap_none hmap) (by simp [decode_eq_ok, hmap])
  | some i =>
    rw [illegalWord_iff_of_opcode (opcode_of_opcodeMap hmap)]
    simp only [ne_eq, decode_eq_ok, hmap, Option.some.injEq]
    constructor
    · rintro hfail j ⟨rfl, hrsv, hinv⟩
      exact hfail.elim (absurd hrsv) hinv
    · intro hnot
      by_contra hpass
      exact hnot i ⟨rfl, not_not.mp fun hrsv => hpass (.inl hrsv), fun hinv => hpass (.inr hinv)⟩

theorem runCommand_of_illegalWord {s : State} (h : IllegalWord s.cmd) :
    runCommand s = .next (rejectedWith 0x001#9 s) := by
  cases hdec : decode s.cmd with
  | ok i => exact absurd hdec ((illegalWord_iff s.cmd).mp h i)
  | error e =>
    rw [runCommand, hdec]
    exact congrArg Host.Outcome.next (reject_eq_rejectedWith .illegal s)

/-- Settles O2: the four cases of R126 are the decoder's failing checks, and with an idle host the step at the completion
point is the rejection alone. -/
theorem illegalWordIsRejected : Obligations.IllegalWordIsRejected := by
  refine fun w => ⟨illegalWord_iff w, fun s hcmd hrun hpending hill => ?_⟩
  rw [step_of_pending_nil hpending, hrun, engineCycle]
  exact runCommand_of_illegalWord (hcmd ▸ hill)

/-! ### Words of the spec, and the step on any word -/

/-- Settles O3: each word is the encoding of the command beside it. -/
theorem specWordsDecode : Obligations.SpecWordsDecode :=
  ⟨decode_encode .nop, decode_encode .init, decode_encode (.gfAdd 0x53#8 0xCA#8), decode_encode (.gfMul 0x02#8 0x80#8),
    decode_encode (.gfDiv 0x1D#8 0x80#8), decode_encode (.gfInv 0x53#8), decode_encode (.gfPow 0x02#8 8#8),
    decode_encode (.synd 33#16), decode_encode .bm, decode_encode .chien, decode_encode .forney,
    decode_encode (.correct 0#16), decode_encode (.decodeBlk 255#16), decode_encode .decodeBuf⟩

/-- The command engine answers a next state in every cycle. -/
theorem engineCycle_next (was : Option Nat) (s : State) : ∃ t, engineCycle was s = .next t := by
  match was with
  | none => exact ⟨_, rfl⟩
  | some 0 =>
    obtain ⟨t, hrun, -⟩ := runCommand_ends s
    exact ⟨t, hrun⟩
  | some (k + 1) => exact ⟨_, rfl⟩

/-- Settles O6: a step is a reset or the command engine's cycle, and each answers a next state. -/
theorem everyStepAnswers : Obligations.EveryStepAnswers := by
  intro s
  obtain ⟨rest, -, hstep⟩ | ⟨-, hstep⟩ := step_cases s
  · exact ⟨_, hstep⟩
  · rw [hstep]
    exact engineCycle_next _ _

end Sys2Proof.Machine
end

section
/-! The assembler (30_encoding.md R129, R130): the literals it refuses, the accesses of each statement, and programs. -/

open Sys2Proof.Claims

namespace Sys2Proof.Machine

/-! ### Literals (R129, log 19) -/

theorem fits_iff {bits v : Nat} : fits bits v = true ↔ v ≤ 2 ^ bits - 1 := by
  rw [fits, decide_eq_true_iff]
  exact (Nat.le_sub_one_iff_lt (Nat.two_pow_pos bits)).symm

theorem wf_iff_elementFits (r : RegName) : r.wf = true ↔ LiteralsFit.ElementFits r := by
  cases r with
  | syn | lambda | omega | gen | root | posn | mag | exp | log | bstat => exact fits_iff
  | buf w => exact decide_eq_true_iff.trans Nat.lt_succ_iff
  | _ => exact iff_of_true rfl trivial

/-- A statement is well formed exactly when its literals fit. -/
theorem wf_iff_literalsFit (p : Stmt) : p.wf = true ↔ LiteralsFit p := by
  cases p with
  | gfAdd | gfMul | gfDiv | gfPow | gfSub => exact Bool.and_eq_true_iff.trans (and_congr fits_iff fits_iff)
  | gfInv | gfSqr | gfAlpha => exact fits_iff
  | synd | correct | decodeBlk | decodeSteps => exact fits_iff
  | wr reg v =>
    cases reg with
    | name r => exact Bool.and_eq_true_iff.trans (and_congr (wf_iff_elementFits r) fits_iff)
    | offset off => exact Bool.and_eq_true_iff.trans (and_congr fits_iff fits_iff)
  | rd reg =>
    cases reg with
    | name r => exact wf_iff_elementFits r
    | offset off => exact fits_iff
  | nop | init | bm | chien | forney | decodeBuf | wait | clrErr => exact iff_of_true rfl trivial

theorem assemble_eq_none {p : Stmt} : assemble p = none ↔ ¬ LiteralsFit p := by
  rw [← wf_iff_literalsFit]
  simp [assemble]

theorem assemble_of_fit {p : Stmt} (h : LiteralsFit p) : assemble p = some (eventsOf p) :=
  if_pos ((wf_iff_literalsFit p).mpr h)

theorem toNat_lit8 {v : Nat} (h : v ≤ 255) : (lit8 v).toNat = v := by
  rw [lit8, BitVec.toNat_ofNat]
  omega

theorem toNat_lit16 {v : Nat} (h : v ≤ 65535) : (lit16 v).toNat = v := by
  rw [lit16, BitVec.toNat_ofNat]
  omega

/-! ### Statements that are one command -/

/-- A fitting statement that is one command gives one access, the CMD write of a command it stands for. -/
theorem eventsOf_command {p : Stmt} (hfit : LiteralsFit p) (hone : OneCommand p) :
    ∃ i, eventsOf p = [issue i] ∧ StandsFor p i := by
  cases p with
  | nop | init | bm | chien | forney | decodeBuf => exact ⟨_, rfl, rfl⟩
  | gfAdd | gfMul | gfDiv | gfPow | gfSub =>
    obtain ⟨ha, hb⟩ := hfit
    exact ⟨_, rfl, _, _, rfl, toNat_lit8 ha, toNat_lit8 hb⟩
  | gfInv | gfSqr | gfAlpha => exact ⟨_, rfl, _, rfl, toNat_lit8 hfit⟩
  | synd | correct | decodeBlk => exact ⟨_, rfl, _, rfl, toNat_lit16 hfit⟩
  | wr | rd | wait | clrErr | decodeSteps => exact hone.elim

/-! ### The offset of a register (R32) -/

/-- The assembler's offset of element `e` of window `w` is where the address map has it. -/
theorem locate_ofNat_element (b : Build) {w e : Nat} (hw : 1 ≤ w) (hw' : w < 16) (he : e ≤ 255) :
    (BitVec.ofNat 16 (0x400 * w + 4 * e)).toNat % 4 = 0 ∧
      locate b (BitVec.ofNat 16 (0x400 * w + 4 * e)) = locateWindow w e := by
  have hoff : (BitVec.ofNat 16 (0x400 * w + 4 * e)).toNat = 0x400 * w + 4 * e := toNat_lit16 (by omega)
  exact ⟨by omega, locate_element b hw hw' (by omega) hoff⟩

/-- The assembler's offset of a name is where the core's address map has it. -/
theorem isOffsetOf_name (b : Build) {r : RegName} (h : LiteralsFit.ElementFits r) :
    IsOffsetOf b (regOffset (.name r)) (.name r) := by
  cases r with
  | syn => exact locate_ofNat_element b (w := 1) (by decide) (by decide) h
  | lambda => exact locate_ofNat_element b (w := 2) (by decide) (by decide) h
  | omega => exact locate_ofNat_element b (w := 3) (by decide) (by decide) h
  | gen => exact locate_ofNat_element b (w := 4) (by decide) (by decide) h
  | root => exact locate_ofNat_element b (w := 5) (by decide) (by decide) h
  | posn => exact locate_ofNat_element b (w := 6) (by decide) (by decide) h
  | mag => exact locate_ofNat_element b (w := 7) (by decide) (by decide) h
  | exp => exact locate_ofNat_element b (w := 8) (by decide) (by decide) h
  | log => exact locate_ofNat_element b (w := 9) (by decide) (by decide) h
  | bstat => exact locate_ofNat_element b (w := 10) (by decide) (by decide) h
  | buf w =>
    have hw : w ≤ 12287 := h
    exact toNat_lit16 (v := 0x4000 + 4 * w) (by omega)
  | _ => exact ⟨rfl, rfl⟩

theorem isOffsetOf_of_rd_fit (b : Build) {reg : Reg} (h : LiteralsFit (.rd reg)) : IsOffsetOf b (regOffset reg) reg := by
  cases reg with
  | name r => exact isOffsetOf_name b h
  | offset n => exact toNat_lit16 h

/-- WR's literals are RD's and the bus word. -/
theorem literalsFit_wr (reg : Reg) (v : Nat) :
    LiteralsFit (.wr reg v) ↔ LiteralsFit (.rd reg) ∧ v ≤ 4294967295 := by
  cases reg <;> exact Iff.rfl

/-! ### Programs (R129) -/

/-- A program is refused at its first statement or after it. -/
theorem assembleProgram_cons_eq_none {p : Stmt} {ps : List Stmt} :
    assembleProgram (p :: ps) = none ↔ assemble p = none ∨ assembleProgram ps = none := by
  cases hp : assemble p <;> cases hps : assembleProgram ps <;> simp [assembleProgram, hp, hps]

theorem assembleProgram_eq_none {ps : List Stmt} : assembleProgram ps = none ↔ ∃ p ∈ ps, assemble p = none := by
  induction ps with
  | nil => simp
  | cons p ps ih => rw [assembleProgram_cons_eq_none, ih, List.exists_mem_cons_iff]

/-- A program's accesses are its statements' in order. -/
theorem flatMap_of_assembleProgram {ps : List Stmt} {es : List HostEvent} (h : assembleProgram ps = some es) :
    ps.flatMap (fun p => (assemble p).getD []) = es := by
  induction ps generalizing es with
  | nil => exact Option.some.inj h
  | cons p ps ih =>
    obtain ⟨e, es', hp, hps, rfl⟩ := assembleProgram_cons_eq_some.mp h
    rw [List.flatMap_cons, ih hps, hp, Option.getD_some]

/-- Settles O4: a fitting statement's accesses are those of `eventsOf`, where a command's word is its encoding and so
decodes back. -/
theorem assemblerNeverTruncates : Obligations.AssemblerNeverTruncates := by
  refine ⟨fun p => ⟨assemble_eq_none, fun hfit hone => ?_⟩, fun reg v hfit => ?_, fun reg hfit => ?_, rfl, rfl,
    fun blk hfit => ?_, fun ps => ⟨assembleProgram_eq_none, fun es => flatMap_of_assembleProgram⟩⟩
  · obtain ⟨i, hevents, hstands⟩ := eventsOf_command hfit hone
    exact ⟨encode i, i, (assemble_of_fit hfit).trans (congrArg some hevents), decode_encode i, hstands⟩
  · obtain ⟨hreg, hv⟩ := (literalsFit_wr reg v).mp hfit
    refine ⟨_, _, assemble_of_fit hfit, ?_, fun b => isOffsetOf_of_rd_fit b hreg⟩
    rw [BitVec.toNat_ofNat]
    omega
  · exact ⟨_, assemble_of_fit hfit, fun b => isOffsetOf_of_rd_fit b hfit⟩
  · exact ⟨lit16 blk, _, _, _, _, _, toNat_lit16 hfit, assemble_of_fit (p := .decodeSteps blk) hfit, decode_encode _,
      decode_encode _, decode_encode _, decode_encode _, decode_encode _⟩

end Sys2Proof.Machine
end

section
/-! Multiplication as polynomials modulo PRIM is the table operation (40_field_engine.md R151 to R159).

A polynomial over GF(2) has a value at α, the sum of the powers of α that its bits select (`atAlpha`). PRIM has value 0
there, so subtracting multiples of PRIM keeps the value, and a polynomial of degree below 8 is its own value: `polyMod`
computes the value at α. The value of a product is the product of the values by the tables. -/

namespace Sys2Proof.Machine

/-! ### Sums that bits select -/

/-- The sum of the terms below `n` that `bit` selects. -/
def selectSum (n : Nat) (bit : Nat → Bool) (f : Nat → Byte) : Byte := xorSum n fun k => if bit k then f k else 0#8

@[simp] theorem selectSum_zero (bit : Nat → Bool) (f : Nat → Byte) : selectSum 0 bit f = 0#8 := rfl

theorem selectSum_succ (n : Nat) (bit : Nat → Bool) (f : Nat → Byte) :
    selectSum (n + 1) bit f = selectSum n bit f ^^^ (if bit n then f n else 0#8) := xorSum_succ ..

theorem selectSum_congr {n : Nat} {bit bit' : Nat → Bool} {f f' : Nat → Byte} (hbit : ∀ k, k < n → bit k = bit' k)
    (hf : ∀ k, k < n → f k = f' k) : selectSum n bit f = selectSum n bit' f' :=
  xorSum_congr fun k hk => by rw [hbit k hk, hf k hk]

/-- The sum from its first term up. -/
theorem selectSum_succ_first (n : Nat) (bit : Nat → Bool) (f : Nat → Byte) :
    selectSum (n + 1) bit f =
      (if bit 0 then f 0 else 0#8) ^^^ selectSum n (fun k => bit (k + 1)) (fun k => f (k + 1)) := by
  induction n with
  | zero => simp [selectSum_succ]
  | succ n ih => rw [selectSum_succ, ih, selectSum_succ, BitVec.xor_assoc]

theorem selectSum_xor (n : Nat) (bit bit' : Nat → Bool) (f : Nat → Byte) :
    selectSum n (fun k => bit k ^^ bit' k) f = selectSum n bit f ^^^ selectSum n bit' f := by
  induction n with
  | zero => exact BitVec.xor_zero.symm
  | succ n ih =>
    have hterm : (if bit n ^^ bit' n then f n else 0#8) =
        (if bit n then f n else 0#8) ^^^ (if bit' n then f n else 0#8) := by
      cases bit n <;> cases bit' n <;> simp
    rw [selectSum_succ, selectSum_succ, selectSum_succ, ih, hterm]
    ac_rfl

/-- An additive map goes through the sum. -/
theorem map_selectSum {F : Byte → Byte} (hzero : F 0#8 = 0#8) (hxor : ∀ u v, F (u ^^^ v) = F u ^^^ F v) (n : Nat)
    (bit : Nat → Bool) (f : Nat → Byte) : F (selectSum n bit f) = selectSum n bit fun k => F (f k) := by
  induction n with
  | zero => exact hzero
  | succ n ih => rw [selectSum_succ, selectSum_succ, hxor, ih, apply_ite F, hzero]

/-- Terms that no bit selects may be left off. -/
theorem selectSum_of_high_false {n m : Nat} {bit : Nat → Bool} (f : Nat → Byte) (hnm : n ≤ m)
    (h : ∀ k, n ≤ k → bit k = false) : selectSum m bit f = selectSum n bit f := by
  induction m, hnm using Nat.le_induction with
  | base => rfl
  | succ m hm ih => simp [selectSum_succ, h m hm, ih]

/-! ### The value of a polynomial at α -/

/-- The value at α of a polynomial over GF(2) of degree below 16: `⊕_k v[k] · α^k`. -/
def atAlpha (prim : BitVec 9) (v : BitVec 16) : Byte := selectSum 16 v.getLsbD (powX prim)

@[simp] theorem atAlpha_zero (prim : BitVec 9) : atAlpha prim 0#16 = 0#8 :=
  selectSum_of_high_false _ (Nat.zero_le 16) fun _ _ => BitVec.getLsbD_zero

theorem atAlpha_xor (prim : BitVec 9) (u v : BitVec 16) :
    atAlpha prim (u ^^^ v) = atAlpha prim u ^^^ atAlpha prim v := by
  rw [atAlpha, atAlpha, atAlpha, ← selectSum_xor]
  exact selectSum_congr (fun _ _ => BitVec.getLsbD_xor) fun _ _ => rfl

/-- Multiplication by x is multiplication by α, where no bit is lost. -/
theorem atAlpha_shiftLeft_one {prim : BitVec 9} {v : BitVec 16} (h : v.getLsbD 15 = false) :
    atAlpha prim (v <<< 1) = xtime prim (atAlpha prim v) :=
  calc atAlpha prim (v <<< 1)
      = selectSum 15 (fun k => (v <<< 1).getLsbD (k + 1)) fun k => powX prim (k + 1) := by
        simp [atAlpha, selectSum_succ_first]
    _ = selectSum 15 v.getLsbD fun k => xtime prim (powX prim k) :=
        selectSum_congr (fun k hk => by
          simp [Nat.succ_lt_succ hk, BitVec.getLsbD_eq_getElem (Nat.lt_succ_of_lt hk)]) fun k _ => powX_succ prim k
    _ = xtime prim (selectSum 15 v.getLsbD (powX prim)) := (map_selectSum (xtime_zero prim) (xtime_xor prim) ..).symm
    _ = xtime prim (atAlpha prim v) := by
        rw [atAlpha, selectSum_succ 15, h, if_neg Bool.false_ne_true, BitVec.xor_zero]

/-- Multiplication by x^i, where no bit is lost. -/
theorem atAlpha_zeroExtend_shiftLeft {n : Nat} (prim : BitVec 9) (w : BitVec n) {i : Nat} (h : n + i ≤ 16) :
    atAlpha prim (w.zeroExtend 16 <<< i) = (xtime prim)^[i] (atAlpha prim (w.zeroExtend 16)) := by
  induction i with
  | zero => simp
  | succ i ih =>
    have hlast : (w.zeroExtend 16 <<< i).getLsbD 15 = false := by
      have hw : w.getLsbD (15 - i) = false := BitVec.getLsbD_of_ge _ _ (by omega)
      simp [hw]
    rw [BitVec.shiftLeft_add, atAlpha_shiftLeft_one hlast, ih (by omega), Function.iterate_succ_apply']

/-- `xtime` by the bit it shifts out (R152). -/
theorem xtime_eq (prim : BitVec 9) (v : Byte) :
    xtime prim v = if v.getLsbD 7 then (v <<< 1) ^^^ prim.extractLsb' 0 8 else v <<< 1 := by
  have hshift : (v.zeroExtend 9 <<< 1).extractLsb' 0 8 = v <<< 1 := by
    apply BitVec.eq_of_getLsbD_eq
    intro i hi
    have hi' : i < 9 := Nat.lt_succ_of_lt hi
    have hv : v.getLsbD (i - 1) = v[i - 1] := BitVec.getLsbD_eq_getElem _
    simp [hi, hi', hv]
  have hcarry : (v.zeroExtend 9 <<< 1).getLsbD 8 = v.getLsbD 7 := by simp
  simp only [xtime, hcarry]
  split
  · rw [BitVec.extractLsb'_xor, hshift]
  · exact hshift

/-- The powers of α below x^8 need no reduction. -/
theorem powX_of_lt (prim : BitVec 9) {k : Nat} (hk : k < 8) : powX prim k = 1#8 <<< k := by
  induction k with
  | zero => rfl
  | succ k ih =>
    have htop : (1#8 <<< k).getLsbD 7 = false := by
      have hne : 7 - k ≠ 0 := by omega
      simp [hne]
    rw [powX_succ, ih (by omega), xtime_eq, htop, if_neg Bool.false_ne_true, BitVec.shiftLeft_add]

/-- x^8 is reduced by one subtraction of PRIM. -/
theorem powX_eight (prim : BitVec 9) : powX prim 8 = prim.extractLsb' 0 8 := by
  rw [powX_succ, powX_of_lt prim (by decide), xtime_eq, if_pos (by decide)]
  exact BitVec.zero_xor

/-- A byte is the sum of the powers of α that its bits select. -/
theorem selectSum_powX (prim : BitVec 9) (v : Byte) : selectSum 8 v.getLsbD (powX prim) = v := by
  rw [selectSum_congr (fun _ _ => rfl) fun _ hk => powX_of_lt prim hk]
  revert v
  decide

/-- A polynomial of degree below 8 is its own value. -/
theorem atAlpha_of_high_false {prim : BitVec 9} {v : BitVec 16} (h : ∀ k, 8 ≤ k → v.getLsbD k = false) :
    atAlpha prim v = v.extractLsb' 0 8 := by
  rw [atAlpha, selectSum_of_high_false _ (by decide) h, ← selectSum_powX prim (v.extractLsb' 0 8)]
  exact selectSum_congr (fun k hk => by simp [hk]) fun _ _ => rfl

@[simp] theorem atAlpha_zeroExtend (prim : BitVec 9) (a : Byte) : atAlpha prim (a.zeroExtend 16) = a := by
  rw [atAlpha_of_high_false fun k hk => by simp [BitVec.getLsbD_of_ge a k hk]]
  apply BitVec.eq_of_getLsbD_eq
  intro i hi
  have hi' : i < 16 := by omega
  simp [hi, hi']

/-- PRIM has value 0 at α. -/
theorem atAlpha_prim {prim : BitVec 9} (hmonic : prim.getLsbD 8 = true) : atAlpha prim (prim.zeroExtend 16) = 0#8 := by
  have hlow : selectSum 8 (prim.zeroExtend 16).getLsbD (powX prim) = prim.extractLsb' 0 8 := by
    rw [← selectSum_powX prim (prim.extractLsb' 0 8)]
    exact selectSum_congr (fun k hk => by simp [hk]; omega) fun _ _ => rfl
  rw [atAlpha, selectSum_of_high_false (n := 9) _ (by decide) fun k hk => by simp [BitVec.getLsbD_of_ge prim k hk],
    selectSum_succ, hlow]
  simp [hmonic, powX_eight]

/-! ### Reduction keeps the value -/

/-- One turn of `polyMod`'s loop: x^(8+i) is cleared. -/
def reduceTurn (prim : BitVec 9) (acc : BitVec 16) (i : Nat) : BitVec 16 :=
  if acc.getLsbD (8 + i) then acc ^^^ (prim.zeroExtend 16 <<< i) else acc

theorem polyMod_eq_foldl (prim : BitVec 9) (v : BitVec 16) :
    polyMod prim v = ((List.range 8).reverse.foldl (reduceTurn prim) v).extractLsb' 0 8 := rfl

theorem atAlpha_reduceTurn {prim : BitVec 9} (hmonic : prim.getLsbD 8 = true) (acc : BitVec 16) {i : Nat} (hi : i < 8) :
    atAlpha prim (reduceTurn prim acc i) = atAlpha prim acc := by
  unfold reduceTurn
  split
  case isTrue =>
    rw [atAlpha_xor, atAlpha_zeroExtend_shiftLeft prim prim (by omega), atAlpha_prim hmonic, iterate_xtime_zero,
      BitVec.xor_zero]
  case isFalse => rfl

theorem reduceTurn_high_false {prim : BitVec 9} (hmonic : prim.getLsbD 8 = true) {acc : BitVec 16} {i : Nat} (hi : i < 8)
    (h : ∀ k, 8 + (i + 1) ≤ k → acc.getLsbD k = false) {k : Nat} (hk : 8 + i ≤ k) :
    (reduceTurn prim acc i).getLsbD k = false := by
  unfold reduceTurn
  rcases Nat.eq_or_lt_of_le hk with rfl | hlt
  · split
    case isTrue htop =>
      have hlt : 8 + i < 16 := by omega
      have hprim : (prim.zeroExtend 16 <<< i).getLsbD (8 + i) = true := by simpa [hlt] using hmonic
      rw [BitVec.getLsbD_xor, htop, hprim, Bool.xor_self]
    case isFalse htop => exact Bool.eq_false_of_not_eq_true htop
  · have hprim : prim.getLsbD (k - i) = false := BitVec.getLsbD_of_ge _ _ (by omega)
    split
    case isTrue => simp [h k hlt, hprim]
    case isFalse => exact h k hlt

/-- The loop keeps the value at α and leaves a polynomial of degree below 8. -/
theorem foldl_reduceTurn {prim : BitVec 9} (hmonic : prim.getLsbD 8 = true) {n : Nat} (hn : n ≤ 8) {v : BitVec 16}
    (h : ∀ k, 8 + n ≤ k → v.getLsbD k = false) :
    atAlpha prim ((List.range n).reverse.foldl (reduceTurn prim) v) = atAlpha prim v ∧
      ∀ k, 8 ≤ k → ((List.range n).reverse.foldl (reduceTurn prim) v).getLsbD k = false := by
  induction n generalizing v with
  | zero => exact ⟨rfl, h⟩
  | succ n ih =>
    have hturn := ih (v := reduceTurn prim v n) (by omega) fun k => reduceTurn_high_false hmonic hn h
    rw [atAlpha_reduceTurn hmonic v hn] at hturn
    simpa [List.range_succ] using hturn

/-- The remainder modulo PRIM is the value at α. -/
theorem polyMod_eq_atAlpha {prim : BitVec 9} (hmonic : prim.getLsbD 8 = true) (v : BitVec 16) :
    polyMod prim v = atAlpha prim v := by
  obtain ⟨hval, hhigh⟩ := foldl_reduceTurn hmonic (Nat.le_refl 8) fun k hk => BitVec.getLsbD_of_ge v k hk
  rw [polyMod_eq_foldl, ← atAlpha_of_high_false hhigh, hval]

/-! ### The product -/

/-- One turn of `clmul`'s loop: `b[i] · a · x^i` is added. -/
def clmulTurn (a b : Byte) (acc : BitVec 16) (i : Nat) : BitVec 16 :=
  if b.getLsbD i then acc ^^^ (a.zeroExtend 16 <<< i) else acc

theorem clmul_eq_foldl (a b : Byte) : clmul a b = (List.range 8).foldl (clmulTurn a b) 0#16 := rfl

theorem atAlpha_foldl_clmulTurn (prim : BitVec 9) (a b : Byte) {n : Nat} (hn : n ≤ 8) :
    atAlpha prim ((List.range n).foldl (clmulTurn a b) 0#16) = selectSum n b.getLsbD fun i => (xtime prim)^[i] a := by
  induction n with
  | zero => exact atAlpha_zero prim
  | succ n ih =>
    rw [List.range_succ, List.foldl_append, List.foldl_cons, List.foldl_nil, selectSum_succ, ← ih (by omega), clmulTurn]
    split
    case isTrue => rw [atAlpha_xor, atAlpha_zeroExtend_shiftLeft prim a (by omega), atAlpha_zeroExtend]
    case isFalse => exact BitVec.xor_zero.symm

/-- The unreduced product has as its value the sum of the multiples of `a` that the bits of `b` select. -/
theorem atAlpha_clmul (prim : BitVec 9) (a b : Byte) :
    atAlpha prim (clmul a b) = selectSum 8 b.getLsbD fun i => (xtime prim)^[i] a :=
  by
  rw [clmul_eq_foldl, atAlpha_foldl_clmulTurn prim a b (Nat.le_refl 8)]

/-- Exponents of an element other than 0 reduce modulo 255 (R159). -/
theorem gfPow_mod (t : Tables) {a : Byte} (ha : a ≠ 0#8) (e : Nat) : gfPow t a (e % 255) = gfPow t a e := by
  rw [gfPow, gfPow, if_neg ha, if_neg ha, ← Tables.alpha_mod, Nat.mul_mod_mod, Tables.alpha_mod]

namespace Tables.Logs

variable {prim : BitVec 9} {t : Tables} (h : t.Logs prim)
include h

/-- The table product is the product of polynomials modulo PRIM (R158). -/
theorem gfMul_eq_polyMul (a b : Byte) : gfMul t a b = polyMul prim a b :=
  calc gfMul t a b
      = gfMul t (selectSum 8 b.getLsbD (powX prim)) a := by rw [selectSum_powX, gfMul_comm]
    _ = selectSum 8 b.getLsbD fun i => gfMul t (powX prim i) a :=
        map_selectSum (F := (gfMul t · a)) (gfMul_zero_left t a) (h.xor_gfMul · · a) ..
    _ = selectSum 8 b.getLsbD fun i => (xtime prim)^[i] a := by simp only [h.gfMul_powX_left]
    _ = polyMul prim a b := by rw [polyMul, polyMod_eq_atAlpha h.monic, atAlpha_clmul]

theorem gfPow_eq_polyPow (a : Byte) (e : Nat) : gfPow t a e = polyPow prim a e := by
  induction e with
  | zero => exact h.gfPow_zero a
  | succ e ih => rw [h.gfPow_succ, ih, h.gfMul_eq_polyMul, polyPow]

/-- Division is multiplication by the inverse (R159). -/
theorem gfDiv_eq_gfMul_gfInv (a : Byte) {b : Byte} (hb : b ≠ 0#8) : gfDiv t a b = gfMul t a (gfInv t b) := by
  have hlt := h.lg_lt hb
  by_cases ha : a = 0#8
  · simp [ha]
  · rw [gfDiv, if_neg ha, gfInv, h.alpha_eq, h.alpha_eq, Nat.add_sub_assoc (by omega), ← h.gfMul_powX, h.powX_lg ha]

/-- The quotient times the divisor is the dividend (R158). -/
theorem gfDiv_gfMul (a : Byte) {b : Byte} (hb : b ≠ 0#8) : gfMul t (gfDiv t a b) b = a := by
  rw [h.gfDiv_eq_gfMul_gfInv a hb, h.gfMul_assoc, gfMul_comm t _ b, h.gfMul_gfInv hb, h.gfMul_one]

end Tables.Logs

/-- Settles O29: the remainder of a product of polynomials is its value at α, and that is the product by the tables;
the other operations follow from the product's laws. -/
theorem tableArithmeticIsPolynomial : Obligations.TableArithmeticIsPolynomial := by
  intro prim t htab a b
  have h := buildTables_logs htab
  refine ⟨h.gfMul_eq_polyMul a b, fun hb => ?_, fun ha => ?_, h.gfPow_eq_polyPow a⟩
  · rw [← h.gfMul_eq_polyMul, h.gfDiv_gfMul a hb]
  · rw [← h.gfMul_eq_polyMul, h.gfMul_gfInv ha]

/-- Settles O30: the laws of the table operations, one by one. -/
theorem fieldLaws : Obligations.FieldLaws := by
  intro prim t htab a b c
  have h := buildTables_logs htab
  have hfull : a ≠ 0#8 → gfPow t a 255 = 0x01#8 := fun ha => (gfPow_mod t ha 255).symm.trans (h.gfPow_zero a)
  exact ⟨h.gfMul_assoc a b c, gfMul_comm t a b, h.gfMul_xor a b c, gfMul_zero_left t a, h.one_gfMul a, hfull,
    h.gfPow_zero a, fun ha e => (gfPow_mod t ha e).symm, h.gfDiv_eq_gfMul_gfInv a⟩

end Sys2Proof.Machine
end

section
/-! The polynomials on which build_tables succeeds (40_field_engine.md R8, R157): those modulo which x has order 255. Which
ones they are is found by a test of the order, on natural numbers. -/

namespace Sys2Proof.Machine

/-! ### build_tables succeeds exactly when x has order 255 -/

/-- Repeated multiplication by x is repeated `xtime` (R8, R152). -/
theorem primitive_iff (prim : BitVec 9) : Primitive prim ↔ prim.getLsbD 8 = true ∧ FullOrbit prim := by
  simp only [Primitive, polyPow_two]
  exact and_congr_right fun _ => ⟨fun ⟨hcloses, hfirst⟩ => ⟨hcloses, hfirst⟩, fun h => ⟨h.closes, h.first⟩⟩

/-- No turn of the loop meets 1 again before the orbit closes. -/
theorem FullOrbit.loop_eq_some {prim : BitVec 9} (h : FullOrbit prim) {n : Nat} (hn : n ≤ 255) :
    ∃ b, (List.range n).foldl (buildTurn prim) (some { e := 0x01#8, tab := Tables.blank }) = some b := by
  induction n with
  | zero => exact ⟨_, rfl⟩
  | succ n ih =>
    obtain ⟨b, hb⟩ := ih (Nat.le_of_succ_le hn)
    have hturn : ¬ (0 < n ∧ b.e = 0x01#8) := fun ⟨hpos, hone⟩ =>
      h.first n hpos hn ((BuildAcc.after_of_loop n hb).e ▸ hone)
    rw [List.range_succ, List.foldl_append, hb, List.foldl_cons, List.foldl_nil, buildTurn, if_neg hturn]
    exact ⟨_, rfl⟩

theorem exists_buildTables {prim : BitVec 9} (hmonic : prim.getLsbD 8 = true) (h : FullOrbit prim) :
    ∃ t, buildTables prim = some t := by
  obtain ⟨b, hb⟩ := h.loop_eq_some (Nat.le_refl 255)
  have hclosed : b.e = 0x01#8 := (BuildAcc.after_of_loop 255 hb).e.trans h.closes
  rw [buildTables, if_pos hmonic, hb]
  exact ⟨_, if_neg (not_not.mpr hclosed)⟩

theorem exists_buildTables_iff (prim : BitVec 9) : (∃ t, buildTables prim = some t) ↔ Primitive prim := by
  rw [primitive_iff]
  refine ⟨fun ⟨_, ht⟩ => ?_, fun ⟨hmonic, h⟩ => exists_buildTables hmonic h⟩
  exact ⟨(buildTables_logs ht).monic, (buildTables_logs ht).orbit⟩

theorem buildTables_eq_none_iff {prim : BitVec 9} : buildTables prim = none ↔ ¬ Primitive prim := by
  rw [← exists_buildTables_iff, ← Option.isSome_iff_exists, Option.not_isSome_iff_eq_none]

/-! ### The order of x, tested -/

/-- Every proper divisor of 255 = 3 · 5 · 17 divides 85, 51 or 15. -/
theorem fullOrbit_iff (prim : BitVec 9) :
    FullOrbit prim ↔ powX prim 255 = 0x01#8 ∧ powX prim 85 ≠ 0x01#8 ∧ powX prim 51 ≠ 0x01#8 ∧ powX prim 15 ≠ 0x01#8 := by
  refine ⟨fun h => ⟨h.closes, ?_⟩, fun ⟨hcloses, h85, h51, h15⟩ => ⟨hcloses, fun k hpos hk hone => ?_⟩⟩
  · exact ⟨h.first 85 (by decide) (by decide), h.first 51 (by decide) (by decide), h.first 15 (by decide) (by decide)⟩
  · have hgcd : Function.IsPeriodicPt (xtime prim) (k.gcd 255) 0x01#8 := Function.IsPeriodicPt.gcd hone hcloses
    have hdvd : k.gcd 255 ∣ 85 ∨ k.gcd 255 ∣ 51 ∨ k.gcd 255 ∣ 15 := by
      have hproper : ∀ d ∈ Nat.properDivisors 255, d ∣ 85 ∨ d ∣ 51 ∨ d ∣ 15 := by decide
      exact hproper _ (Nat.mem_properDivisors.mpr ⟨Nat.gcd_dvd_right k 255, (Nat.gcd_le_left 255 hpos).trans_lt hk⟩)
    rcases hdvd with hd | hd | hd
    · exact h85 (hgcd.trans_dvd hd)
    · exact h51 (hgcd.trans_dvd hd)
    · exact h15 (hgcd.trans_dvd hd)

/-- `α^i` as a number, for PRIM as a number, in operations that Lean's kernel computes on literals. -/
def powXNat (p i : Nat) : Nat := Nat.rec 1 (fun _ v => Nat.xor (Nat.mul 2 v) (Nat.mul (Nat.div v 128) p)) i

theorem powXNat_succ (p i : Nat) : powXNat p (i + 1) = (2 * powXNat p i) ^^^ (powXNat p i / 128 * p) := rfl

/-- `xtime` in nine bits: the bit that the shift carries out is cleared by PRIM's. -/
theorem zeroExtend_xtime {prim : BitVec 9} (hmonic : prim.getLsbD 8 = true) (v : Byte) :
    (xtime prim v).zeroExtend 9 = (v.zeroExtend 9 <<< 1) ^^^ (if v.getLsbD 7 then prim else 0#9) := by
  have hcarry : (v.zeroExtend 9 <<< 1).getLsbD 8 = v.getLsbD 7 := by simp
  apply BitVec.eq_of_getLsbD_eq
  intro i hi
  rcases Nat.lt_succ_iff_lt_or_eq.mp hi with hlt | rfl
  · simp only [xtime, hcarry]
    split <;> simp [hi, hlt]
  · rw [BitVec.getLsbD_xor, hcarry]
    cases hv : v.getLsbD 7 <;> simp [hmonic]

theorem toNat_xtime {prim : BitVec 9} (hmonic : prim.getLsbD 8 = true) (v : Byte) :
    (xtime prim v).toNat = (2 * v.toNat) ^^^ (v.toNat / 128 * prim.toNat) := by
  have hlt : v.toNat < 256 := v.isLt
  have hshift : (v.zeroExtend 9 <<< 1).toNat = 2 * v.toNat := by
    simp [Nat.shiftLeft_eq]
    omega
  have htop : v.toNat / 128 = (v.getLsbD 7).toNat := by
    have hbit : (v.getLsbD 7).toNat = v.toNat / 128 % 2 := Nat.toNat_testBit v.toNat 7
    omega
  have hprim : (if v.getLsbD 7 then prim else 0#9).toNat = v.toNat / 128 * prim.toNat := by
    rw [htop]
    cases v.getLsbD 7 <;> simp
  rw [← hshift, ← hprim, ← BitVec.toNat_xor, ← zeroExtend_xtime hmonic]
  exact (BitVec.toNat_setWidth_of_le (by decide)).symm

theorem toNat_powX {prim : BitVec 9} (hmonic : prim.getLsbD 8 = true) (i : Nat) :
    (powX prim i).toNat = powXNat prim.toNat i := by
  induction i with
  | zero => rfl
  | succ i ih => rw [powX_succ, toNat_xtime hmonic, ih, powXNat_succ]

/-- PRIM as a number has degree 8 and passes the test of the order of x. -/
def passesOrderTest (p : Nat) : Bool :=
  decide (256 ≤ p) && powXNat p 255 == 1 && powXNat p 85 != 1 && powXNat p 51 != 1 && powXNat p 15 != 1

theorem powX_eq_one_iff {prim : BitVec 9} (hmonic : prim.getLsbD 8 = true) (i : Nat) :
    powX prim i = 0x01#8 ↔ powXNat prim.toNat i = 1 := by
  rw [← toNat_powX hmonic, ← BitVec.toNat_inj]
  rfl

theorem passesOrderTest_iff (prim : BitVec 9) : passesOrderTest prim.toNat = true ↔ Primitive prim := by
  have hmonic : prim.getLsbD 8 = true ↔ 256 ≤ prim.toNat := by
    rw [← BitVec.msb_eq_getLsbD_last, BitVec.msb_eq_decide, decide_eq_true_iff]
  simp only [primitive_iff, fullOrbit_iff, passesOrderTest, Bool.and_eq_true, decide_eq_true_iff, beq_iff_eq, bne_iff_ne,
    and_assoc, ← hmonic, ne_eq]
  exact and_congr_right fun h => by simp only [powX_eq_one_iff h]

/-- The sixteen polynomials of R157. -/
def listedPrims : List (BitVec 9) :=
  [0x11D#9, 0x12B#9, 0x12D#9, 0x14D#9, 0x15F#9, 0x163#9, 0x165#9, 0x169#9, 0x171#9, 0x187#9,
    0x18D#9, 0x1A9#9, 0x1C3#9, 0x1CF#9, 0x1E7#9, 0x1F5#9]

theorem filter_passesOrderTest : (List.range 512).filter passesOrderTest = listedPrims.map BitVec.toNat := by
  decide +kernel

theorem primitive_iff_mem_listedPrims (prim : BitVec 9) : Primitive prim ↔ prim ∈ listedPrims := by
  have hinj : Function.Injective (BitVec.toNat (w := 9)) := fun _ _ => BitVec.eq_of_toNat_eq
  rw [← passesOrderTest_iff, ← List.mem_map_of_injective hinj, ← filter_passesOrderTest, List.mem_filter, List.mem_range,
    and_iff_right prim.isLt]

/-- Settles O27: the loop fails where 1 comes again too early or not at all; the sixteen are those of all 512 that pass
the test of the order of x. -/
theorem tablesBuildIffPrimitive : Obligations.TablesBuildIffPrimitive :=
  fun prim => ⟨exists_buildTables_iff prim, primitive_iff_mem_listedPrims prim⟩

end Sys2Proof.Machine
end

section
/-! The field commands, NOP and INIT: what each answers, with its whole frame (40_field_engine.md R160 to R166). -/

open Sys2Proof.Claims

namespace Sys2Proof.Machine

/-- A completion changes what R322 lists. -/
theorem complete_eq_completedWith (r : Res) (s : State) : s.complete r = completedWith r s := rfl

/-- Settles O32: NOP has no check and no write of its own. -/
theorem nopCompletes : Obligations.NopCompletes := fun s => congrArg Host.Outcome.next (complete_eq_completedWith .ok s)

/-! ### The field commands -/

/-- A field command's answer: RESULT and what R322 lists. -/
theorem giveResult_eq_completedWith (v : Byte) (s : State) : s.giveResult v = completedWith .ok { s with result := v } :=
  complete_eq_completedWith ..

section

variable {s : State} (hd : s.initDone = true)
include hd

theorem exec_gfAdd (a b : Byte) : exec (.gfAdd a b) s = .next (s.giveResult (a ^^^ b)) := by
  simp [exec, execGfAdd, hd]

theorem exec_gfMul (a b : Byte) : exec (.gfMul a b) s = .next (s.giveResult (gfMul s.tab a b)) := by
  simp [exec, execGfMul, hd]

theorem exec_gfDiv (a : Byte) {b : Byte} (hb : b ≠ 0#8) :
    exec (.gfDiv a b) s = .next (s.giveResult (gfDiv s.tab a b)) := by
  simp [exec, execGfDiv, hd, beq_eq_false_iff_ne.mpr hb]

theorem exec_gfInv {a : Byte} (ha : a ≠ 0#8) : exec (.gfInv a) s = .next (s.giveResult (gfInv s.tab a)) := by
  simp [exec, execGfInv, hd, beq_eq_false_iff_ne.mpr ha]

theorem exec_gfPow (a e : Byte) : exec (.gfPow a e) s = .next (s.giveResult (gfPow s.tab a e.toNat)) := by
  simp [exec, execGfPow, hd]

end

/-- Settles O31: each command gives the table operation's result, which is that of polynomials modulo CFG_PRIM. -/
theorem fieldCommandsComplete : Obligations.FieldCommandsComplete := by
  intro s hinv hd a b
  have h := hinv.logs hd
  simp only [← giveResult_eq_completedWith, ← h.gfMul_eq_polyMul, ← h.gfPow_eq_polyPow]
  exact ⟨exec_gfAdd hd a b, exec_gfMul hd a b, fun hb => ⟨_, h.gfDiv_gfMul a hb, exec_gfDiv hd a hb⟩,
    fun ha => ⟨_, h.gfMul_gfInv ha, exec_gfInv hd ha⟩, exec_gfPow hd a b⟩

/-! ### INIT -/

theorem cfgLegal_iff (s : State) : s.cfgLegal = true ↔ SizesOk s := by
  simp only [State.cfgLegal, Bool.and_eq_true, decide_eq_true_eq, beq_iff_eq, and_assoc]
  rfl

section

variable {s : State} (hd : s.initDone = false)
include hd

theorem execInit_of_built (hcfg : SizesOk s) {t : Tables} (ht : buildTables s.cfgPrim = some t) :
    execInit s = .next (s.initialised t) := by
  simp [execInit, hd, (cfgLegal_iff s).mpr hcfg, ht]

theorem execInit_of_not_sizesOk (hcfg : ¬ SizesOk s) : execInit s = .next (s.reject .cfg) := by
  simp [execInit, hd, mt (cfgLegal_iff s).mp hcfg]

theorem execInit_of_not_built (hcfg : SizesOk s) (ht : buildTables s.cfgPrim = none) :
    execInit s = .next s.failedBuild := by
  simp [execInit, hd, (cfgLegal_iff s).mpr hcfg, ht]

end

/-- A failed build is a rejection but for EXP and LOG (log 10). -/
theorem failedBuild_eq_rejectedWith (s : State) :
    s.failedBuild = { rejectedWith 0x004#9 s with tab := s.failedBuild.tab, draws := s.failedBuild.draws } := by
  have hreject : s.reject .cfg = rejectedWith 0x004#9 s := reject_eq_rejectedWith .cfg s
  rw [← hreject]
  rfl

/-- Settles O33: INIT's checks one after the other; the tables build exactly for a primitive CFG_PRIM. -/
theorem initEnds : Obligations.InitEnds := by
  intro s
  refine ⟨fun hd => if_pos hd, fun hd hcfg hprim => ?_, fun hd hcfg => ?_, fun hd hcfg hprim => ?_⟩
  · obtain ⟨t, ht⟩ := (exists_buildTables_iff _).mpr hprim
    exact ⟨t, ht, execInit_of_built hd hcfg ht⟩
  · exact (execInit_of_not_sizesOk hd hcfg).trans (congrArg _ (reject_eq_rejectedWith .cfg s))
  · have ht := buildTables_eq_none_iff.mpr hprim
    exact ⟨_, execInit_of_not_built hd hcfg ht, failedBuild_eq_rejectedWith s⟩

end Sys2Proof.Machine
end

section
/-! The generator polynomial and the syndromes over the field (41_generator_syndrome.md R190 to R195).

GEN is carried to a polynomial over the field of the tables, where one turn of build_generator is a product with
`x + ρ_j`. A syndrome is a sum of powers, which is linear in the block's bytes. -/

open Sys2Proof.Claims

namespace Sys2Proof.Machine

/-! ### Polynomials given by their coefficients -/

namespace ToField

open Polynomial

variable {prim : BitVec 9} {t : Tables} {K : Type} [Field K] (φ : ToField t K)

theorem natDegree_poly_lt {n : Nat} {p : List Byte} (hn : 0 < n) (hdeg : ∀ i, n ≤ i → rd p i = 0#8) :
    (φ.poly p).natDegree < n := by
  refine Nat.lt_of_le_pred hn (natDegree_le_iff_coeff_eq_zero.mpr fun i hi => ?_)
  rw [φ.coeff_poly, hdeg i (Nat.le_of_pred_lt hi), φ.map_zero]

/-- The value by powers of a list without coefficients from `n` up. -/
theorem map_powerSum_rd (h : t.Logs prim) {n : Nat} {p : List Byte} (hn : 0 < n) (hdeg : ∀ i, n ≤ i → rd p i = 0#8)
    (x : Byte) : φ.map (powerSum t n (rd p) x) = (φ.poly p).eval (φ.map x) := by
  rw [eval_eq_sum_range' (φ.natDegree_poly_lt hn hdeg), φ.map_powerSum h]
  simp only [φ.coeff_poly]

/-! ### The generator polynomial (R190, R191) -/

/-- One turn of build_generator multiplies a polynomial of degree at most j by `x + ρ_j`. -/
theorem poly_genTurn (fcr : Nat) {g : List Byte} {j : Nat} (hroom : j + 1 < g.length)
    (hdeg : ∀ i, j < i → rd g i = 0#8) :
    φ.poly (genTurn t fcr g j) = φ.poly g * (X + C (φ.map (t.genRoot fcr j))) := by
  ext i
  rw [φ.coeff_poly, mul_add, coeff_add, coeff_mul_C, genTurn, rd_fill]
  cases i with
  | zero =>
    rw [if_pos (by omega), if_pos rfl, φ.map_mul, mul_coeff_zero, coeff_X_zero, mul_zero, zero_add, φ.coeff_poly]
  | succ i =>
    rw [coeff_mul_X, φ.coeff_poly, φ.coeff_poly]
    by_cases hi : i ≤ j
    · rw [if_pos (by omega), if_neg (Nat.succ_ne_zero i), if_pos (by omega), φ.map_xor, φ.map_mul]
      rfl
    · have hzero := hdeg i (by omega)
      have hzero' := hdeg (i + 1) (by omega)
      simp [hzero, hzero', show ¬ i ≤ j by omega, φ.map_zero]

/-- The product `∏_{j<n} (x + ρ_j)`. -/
noncomputable def genPoly (fcr n : Nat) : K[X] := ∏ j ∈ Finset.range n, (X + C (φ.map (t.genRoot fcr j)))

theorem genPoly_monic (fcr n : Nat) : (φ.genPoly fcr n).Monic := monic_prod_of_monic _ _ fun _ _ => monic_X_add_C _

theorem natDegree_genPoly (fcr n : Nat) : (φ.genPoly fcr n).natDegree = n := by
  rw [genPoly, natDegree_prod_of_monic _ _ fun _ _ => monic_X_add_C _]
  simp

theorem rd_eq_zero_of_natDegree_lt {p : List Byte} {i : Nat} (hi : (φ.poly p).natDegree < i) : rd p i = 0#8 :=
  φ.map_eq_zero.mp (φ.coeff_poly p i ▸ coeff_eq_zero_of_natDegree_lt hi)

theorem poly_buildGenerator (nparMax fcr : Nat) {n : Nat} (hn : n ≤ nparMax) :
    φ.poly (buildGenerator t nparMax n fcr) = φ.genPoly fcr n := by
  induction n with
  | zero =>
    ext i
    rw [φ.coeff_poly, buildGenerator, List.range_zero, List.foldl_nil, rd_fill, genPoly, Finset.prod_range_zero,
      coeff_one]
    by_cases hi : i = 0
    · simp [hi, φ.map_one]
    · simp [hi, φ.map_zero]
  | succ n ih =>
    have ih := ih (Nat.le_of_succ_le hn)
    have hturn : buildGenerator t nparMax (n + 1) fcr = genTurn t fcr (buildGenerator t nparMax n fcr) n := by
      simp [buildGenerator, List.range_succ]
    rw [hturn, φ.poly_genTurn fcr (by rw [length_buildGenerator]; omega), ih, genPoly, genPoly, Finset.prod_range_succ]
    exact fun i hi => φ.rd_eq_zero_of_natDegree_lt (by rwa [ih, φ.natDegree_genPoly])

theorem eval_genPoly (fcr n : Nat) (x : Byte) :
    (φ.genPoly fcr n).eval (φ.map x) =
      φ.map ((List.range n).foldl (fun acc j => gfMul t acc (x ^^^ t.genRoot fcr j)) 0x01#8) := by
  induction n with
  | zero => simp [genPoly, φ.map_one]
  | succ n ih =>
    have hstep : φ.genPoly fcr (n + 1) = φ.genPoly fcr n * (X + C (φ.map (t.genRoot fcr n))) :=
      Finset.prod_range_succ ..
    simp only [hstep, List.range_succ, List.foldl_append, List.foldl_cons, List.foldl_nil, φ.map_mul, φ.map_xor,
      ← ih, eval_mul, eval_add, eval_X, eval_C]

/-- `x + ρ` is zero at ρ: twice a byte is zero. -/
theorem map_add_self (a : Byte) : φ.map a + φ.map a = 0 := by rw [← φ.map_xor, BitVec.xor_self, φ.map_zero]

theorem eval_genPoly_root (fcr : Nat) {j n : Nat} (hj : j < n) :
    (φ.genPoly fcr n).eval (φ.map (t.genRoot fcr j)) = 0 := by
  rw [genPoly, eval_prod]
  exact Finset.prod_eq_zero (Finset.mem_range.mpr hj) (by simp [φ.map_add_self])

end ToField

/-- Settles O34: GEN's coefficients are those of `∏_j (x + ρ_j)`, by induction on the turns. -/
theorem generatorIsProductOfRoots : Obligations.GeneratorIsProductOfRoots := by
  intro prim t nparMax npar fcr htab hnpar
  have h := buildTables_logs htab
  obtain ⟨K, _, ⟨φ⟩⟩ := exists_toField h
  have hpoly := φ.poly_buildGenerator nparMax fcr hnpar
  have habove : ∀ i, npar < i → rd (buildGenerator t nparMax npar fcr) i = 0#8 := fun i hi =>
    φ.rd_eq_zero_of_natDegree_lt (by rwa [hpoly, φ.natDegree_genPoly])
  have hval : ∀ x, φ.map (powerSum t (npar + 1) (rd (buildGenerator t nparMax npar fcr)) x) =
      (φ.genPoly fcr npar).eval (φ.map x) := fun x => hpoly ▸ φ.map_powerSum_rd h (Nat.succ_pos npar) habove x
  have hroot : ∀ j, t.alpha ((fcr + j) % 255) = t.genRoot fcr j := fun j => t.alpha_mod _
  simp only [hroot]
  refine ⟨length_buildGenerator .., φ.injective ?_, habove, fun x => φ.injective ((hval x).trans ?_), fun j hj => ?_⟩
  · rw [← φ.coeff_poly, hpoly, φ.map_one]
    simpa [φ.natDegree_genPoly] using (φ.genPoly_monic fcr npar).coeff_natDegree
  · exact φ.eval_genPoly fcr npar x
  · exact φ.map_eq_zero.mp ((hval _).trans (φ.eval_genPoly_root fcr hj))

/-! ### Syndromes (R193 to R195) -/

theorem rd_eq_getElem {a : List Byte} {i : Nat} (h : i < a.length) : rd a i = a[i] := List.getD_eq_getElem _ _ h

/-- Horner's rule from the first byte on, as a sum of powers: byte k has degree `length - 1 - k`. -/
theorem Tables.Logs.syndromeOf_eq_powerSum {prim : BitVec 9} {t : Tables} (h : t.Logs prim) (fcr : Nat)
    (block : List Byte) (j : Nat) :
    syndromeOf t fcr block j =
      powerSum t block.length (fun p => rd block (block.length - 1 - p)) (t.genRoot fcr j) := by
  have hhorner : syndromeOf t fcr block j = polyEval t block.reverse (t.genRoot fcr j) := List.foldl_eq_foldr_reverse
  rw [hhorner, h.polyEval_eq_powerSum, List.length_reverse]
  refine xorSum_congr fun p hp => ?_
  simp only [rd_eq_getElem (a := block.reverse) (by simpa using hp), List.getElem_reverse,
    rd_eq_getElem (show block.length - 1 - p < block.length by omega)]

theorem xorSum_xor (n : Nat) (f g : Nat → Byte) : xorSum n (fun i => f i ^^^ g i) = xorSum n f ^^^ xorSum n g := by
  induction n with
  | zero => simp
  | succ n ih =>
    simp only [xorSum_succ, ih]
    ac_rfl

/-- The value of a sum of polynomials is the sum of their values. -/
theorem Tables.Logs.powerSum_xor {prim : BitVec 9} {t : Tables} (h : t.Logs prim) (n : Nat) (f g : Nat → Byte)
    (x : Byte) : powerSum t n (fun i => f i ^^^ g i) x = powerSum t n f x ^^^ powerSum t n g x := by
  simp only [powerSum, h.xor_gfMul, xorSum_xor]

theorem Tables.Logs.gfPow_alpha {prim : BitVec 9} {t : Tables} (h : t.Logs prim) (k e : Nat) :
    gfPow t (t.alpha k) e = t.alpha (k * e) := by
  have hlg : t.lg (t.alpha k) = k % 255 := by
    rw [h.alpha_eq, ← h.orbit.powX_mod, h.lg_powX (Nat.mod_lt _ (by decide))]
  rw [gfPow, if_neg (h.alpha_ne_zero k), hlg, ← Tables.alpha_mod, Nat.mod_mul_mod, Tables.alpha_mod]

/-- The value at `α^k`, as the sum of the k-th powers of the locators `α^p` (R195). -/
theorem Tables.Logs.powerSum_alpha {prim : BitVec 9} {t : Tables} (h : t.Logs prim) (n : Nat) (f : Nat → Byte)
    (k : Nat) : powerSum t n f (t.alpha k) = xorSum n fun p => gfMul t (f p) (gfPow t (t.alpha p) k) := by
  simp only [powerSum, h.gfPow_alpha, Nat.mul_comm]

theorem rd_zipWith_xor {c e : List Byte} (hlen : c.length = e.length) (i : Nat) :
    rd (List.zipWith (fun x y => x ^^^ y) c e) i = rd c i ^^^ rd e i := by
  by_cases hi : i < e.length
  · simp [rd, hi, hlen]
  · simp [rd, hi, hlen]

/-- Settles O36: a syndrome is linear in the bytes of the block, and the codeword's share of it is 0. -/
theorem syndromesDependOnlyOnError : Obligations.SyndromesDependOnlyOnError := by
  intro prim t fcr j c e htab hlen hzero
  have h := buildTables_logs htab
  rw [h.syndromeOf_eq_powerSum, hlen] at hzero
  rw [h.syndromeOf_eq_powerSum, List.length_zipWith, hlen, Nat.min_self]
  simp only [rd_zipWith_xor hlen]
  rw [h.powerSum_xor, hzero, BitVec.zero_xor]
  exact h.powerSum_alpha ..

end Sys2Proof.Machine
end

section
/-! Error patterns over a field (41_generator_syndrome.md R195, 42_locator_bm.md R210, R214, 44_forney.md R250 to R253).

An error pattern has degrees `P`, distinct locators `X p` and weights `W p`; its power sums `∑_p W_p X_p^j` are the
syndromes. The recurrences that generate 2|P| of them have length at least |P|, and the one of length |P| is the
locator polynomial, whose product with the syndromes is Forney's Ω. -/

namespace Sys2Proof.Machine

open Polynomial

variable {K : Type} [Field K] {P : Finset ℕ} {X W : ℕ → K}

/-! ### Vandermonde -/

/-- Weights whose first |P| power sums are 0 are 0. -/
theorem weight_eq_zero_of_powerSums (hX : Set.InjOn X P) (hsum : ∀ i, i < P.card → ∑ p ∈ P, W p * X p ^ i = 0)
    {p : ℕ} (hp : p ∈ P) : W p = 0 := by
  classical
  have hdeg : (Lagrange.nodal (P.erase p) X).natDegree < P.card := by
    rw [Lagrange.natDegree_nodal, Finset.card_erase_of_mem hp]
    exact Nat.sub_lt (Finset.card_pos.mpr ⟨p, hp⟩) Nat.one_pos
  have hlinear : ∑ q ∈ P, W q * (Lagrange.nodal (P.erase p) X).eval (X q) = 0 := by
    simp only [eval_eq_sum_range' hdeg, Finset.mul_sum, mul_left_comm (W _)]
    rw [Finset.sum_comm]
    exact Finset.sum_eq_zero fun i hi => by rw [← Finset.mul_sum, hsum i (Finset.mem_range.mp hi), mul_zero]
  rw [Finset.sum_eq_single_of_mem p hp fun q hq hne => by
    rw [Lagrange.eval_nodal_at_node (Finset.mem_erase.mpr ⟨hne, hq⟩), mul_zero]] at hlinear
  refine (mul_eq_zero.mp hlinear).resolve_right (Lagrange.eval_nodal_not_at_node fun q hq heq => ?_)
  obtain ⟨hne, hq⟩ := Finset.mem_erase.mp hq
  exact hne (hX hq hp heq.symm)

/-! ### The locator polynomial (R210) -/

/-- `1 - X_p·x`. -/
noncomputable def locFactor (X : ℕ → K) (p : ℕ) : K[X] := 1 - C (X p) * Polynomial.X

/-- `∏_p (1 - X_p·x)`. -/
noncomputable def locator (P : Finset ℕ) (X : ℕ → K) : K[X] := ∏ p ∈ P, locFactor X p

theorem eval_locFactor (p : ℕ) (y : K) : (locFactor X p).eval y = 1 - X p * y := by simp [locFactor]

theorem eval_locator (y : K) : (locator P X).eval y = ∏ p ∈ P, (1 - X p * y) := by
  simp only [locator, eval_prod, eval_locFactor]

theorem coeff_locator_zero : (locator P X).coeff 0 = 1 := by
  simp [coeff_zero_eq_eval_zero, eval_locator]

theorem natDegree_locFactor {p : ℕ} (hp : X p ≠ 0) : (locFactor X p).natDegree = 1 := by
  have hform : locFactor X p = C (-X p) * Polynomial.X + C 1 := by
    simp only [locFactor, C_neg, C_1]
    ring
  rw [hform, natDegree_linear (neg_ne_zero.mpr hp)]

theorem natDegree_locator (hne : ∀ p ∈ P, X p ≠ 0) : (locator P X).natDegree = P.card := by
  have hfactor : ∀ p ∈ P, locFactor X p ≠ 0 := fun p hp =>
    ne_zero_of_natDegree_gt (n := 0) (by rw [natDegree_locFactor (hne p hp)]; exact Nat.one_pos)
  rw [locator, natDegree_prod _ _ hfactor, Finset.sum_congr rfl fun p hp => natDegree_locFactor (hne p hp)]
  simp

theorem eval_locator_eq_zero_iff {q : ℕ} (hq : X q ≠ 0) :
    (locator P X).eval (X q)⁻¹ = 0 ↔ ∃ p ∈ P, X p = X q := by
  rw [eval_locator, Finset.prod_eq_zero_iff]
  refine exists_congr fun p => and_congr_right fun hp => ?_
  rw [sub_eq_zero, eq_comm, mul_inv_eq_one₀ hq]

/-! ### Recurrences -/

/-- `S` has as its first `n` coefficients the power sums of the pattern (R195). -/
def HasPowerSums (S : K[X]) (n : ℕ) (P : Finset ℕ) (X W : ℕ → K) : Prop :=
  ∀ j, j < n → S.coeff j = ∑ p ∈ P, W p * X p ^ j

/-- The coefficients of `f·S` from `len` to below `n` are 0: f generates S as a recurrence of length `len`. -/
def Generates (f S : K[X]) (len n : ℕ) : Prop := ∀ i, len ≤ i → i < n → (f * S).coeff i = 0

variable {S f : K[X]} {n len : ℕ}

/-- A coefficient of `f·S` from deg f on is a power sum with the weights `W_p·f(X_p⁻¹)`. -/
theorem HasPowerSums.coeff_mul (hS : HasPowerSums S n P X W) (hne : ∀ p ∈ P, X p ≠ 0) {i : ℕ} (hdeg : f.natDegree ≤ i)
    (hi : i < n) : (f * S).coeff i = ∑ p ∈ P, W p * f.eval (X p)⁻¹ * X p ^ i := by
  have hterm : ∀ k ∈ Finset.range (i + 1), f.coeff k * S.coeff (i - k) =
      ∑ p ∈ P, W p * (f.coeff k * (X p)⁻¹ ^ k) * X p ^ i := fun k hk => by
    have hk : k ≤ i := Nat.le_of_lt_succ (Finset.mem_range.mp hk)
    rw [hS _ (by omega), Finset.mul_sum]
    refine Finset.sum_congr rfl fun p hp => ?_
    have hpow : X p ^ i = X p ^ k * X p ^ (i - k) := by rw [← pow_add, Nat.add_sub_cancel' hk]
    have hinv : (X p)⁻¹ ^ k * X p ^ k = 1 := by rw [← mul_pow, inv_mul_cancel₀ (hne p hp), one_pow]
    rw [hpow]
    linear_combination (-(f.coeff k * W p * X p ^ (i - k))) * hinv
  rw [Polynomial.coeff_mul, Finset.Nat.sum_antidiagonal_eq_sum_range_succ fun k l => f.coeff k * S.coeff l,
    Finset.sum_congr rfl hterm, Finset.sum_comm]
  refine Finset.sum_congr rfl fun p _ => ?_
  rw [eval_eq_sum_range' (Nat.lt_succ_of_le hdeg), Finset.mul_sum, Finset.sum_mul]

/-- The locator generates the power sums (R214). -/
theorem HasPowerSums.locator_generates (hS : HasPowerSums S n P X W) (hne : ∀ p ∈ P, X p ≠ 0) :
    Generates (locator P X) S P.card n := fun i hi hin => by
  rw [hS.coeff_mul hne ((natDegree_locator hne).trans_le hi) hin]
  refine Finset.sum_eq_zero fun p hp => ?_
  rw [(eval_locator_eq_zero_iff (hne p hp)).mpr ⟨p, hp, rfl⟩, mul_zero, zero_mul]

/-- Two recurrences give one discrepancy after the coefficients that both generate: that of the product of the three. -/
theorem Generates.coeff_eq_of_generates {g : K[X]} {len' : ℕ} (hf : Generates f S len n) (hg : g.natDegree ≤ len')
    (hone : g.coeff 0 = 1) (hlen : len + len' ≤ n) : (g * (f * S)).coeff n = (f * S).coeff n := by
  have hterm : ∀ kl ∈ Finset.HasAntidiagonal.antidiagonal n, kl ≠ (0, n) → g.coeff kl.1 * (f * S).coeff kl.2 = 0 := by
    intro ⟨k, l⟩ hkl hne
    rw [Finset.HasAntidiagonal.mem_antidiagonal] at hkl
    have hk : k ≠ 0 := fun hk => hne (by simp only [Prod.mk.injEq]; omega)
    by_cases hdeg : len' < k
    · rw [coeff_eq_zero_of_natDegree_lt (hg.trans_lt hdeg), zero_mul]
    · rw [hf l (by omega) (by omega), mul_zero]
  rw [Polynomial.coeff_mul, Finset.sum_eq_single_of_mem (0, n) (by simp) hterm, hone, one_mul]

/-- Massey's bound: a recurrence of length `len` that fails at `r` after it generated what came before has no
recurrence of length at most r - len beside it that does not fail. -/
theorem Generates.lt_add_of_discrepancy {g : K[X]} {r len' : ℕ} (hf : Generates f S len r) (hfdeg : f.natDegree ≤ len)
    (hfone : f.coeff 0 = 1) (hdisc : (f * S).coeff r ≠ 0) (hg : Generates g S len' (r + 1))
    (hgdeg : g.natDegree ≤ len') (hgone : g.coeff 0 = 1) : r < len + len' := by
  by_contra hle
  have hle : len + len' ≤ r := Nat.le_of_not_lt hle
  have hg' : Generates g S len' r := fun i hi hir => hg i hi (Nat.lt_succ_of_lt hir)
  refine hdisc ?_
  calc (f * S).coeff r
      = (g * (f * S)).coeff r := (hf.coeff_eq_of_generates hgdeg hgone hle).symm
    _ = (f * (g * S)).coeff r := by rw [mul_left_comm]
    _ = (g * S).coeff r := hg'.coeff_eq_of_generates hfdeg hfone (by omega)
    _ = 0 := hg r (by omega) (Nat.lt_succ_self r)

/-- The shortest recurrence of 2|P| power sums is the locator (R214). -/
theorem HasPowerSums.eq_locator (hS : HasPowerSums S n P X W) (hne : ∀ p ∈ P, X p ≠ 0) (hX : Set.InjOn X P)
    (hW : ∀ p ∈ P, W p ≠ 0) (hcap : 2 * P.card ≤ n) (hf : Generates f S len n) (hdeg : f.natDegree ≤ len)
    (hone : f.coeff 0 = 1) (hlen : len ≤ P.card) : f = locator P X ∧ len = P.card := by
  classical
  have hroot : ∀ p ∈ P, f.eval (X p)⁻¹ = 0 := fun p hp => by
    have hzero := weight_eq_zero_of_powerSums (W := fun p => W p * f.eval (X p)⁻¹ * X p ^ len) hX (fun i hi => by
      have hle : len ≤ len + i := Nat.le_add_right ..
      rw [← hf (len + i) hle (by omega), hS.coeff_mul hne (hdeg.trans hle) (by omega)]
      simp only [pow_add, mul_assoc]) hp
    simpa [hW p hp, hne p hp] using hzero
  have heq : f = locator P X := by
    refine eq_of_degree_sub_lt_of_eval_finset_eq (insert 0 (P.image fun p => (X p)⁻¹)) ?_ fun y hy => ?_
    · have hcard : (insert 0 (P.image fun p => (X p)⁻¹)).card = P.card + 1 := by
        rw [Finset.card_insert_of_notMem, Finset.card_image_of_injOn fun p hp q hq heq => hX hp hq (inv_injective heq)]
        simpa using hne
      rw [hcard]
      refine (degree_le_natDegree).trans_lt (Nat.cast_lt.mpr (Nat.lt_succ_of_le ?_))
      exact (natDegree_sub_le ..).trans (max_le (hdeg.trans hlen) (natDegree_locator hne).le)
    · obtain rfl | hy := Finset.mem_insert.mp hy
      · rw [← coeff_zero_eq_eval_zero, ← coeff_zero_eq_eval_zero, hone, coeff_locator_zero]
      · obtain ⟨p, hp, rfl⟩ := Finset.mem_image.mp hy
        rw [hroot p hp, (eval_locator_eq_zero_iff (hne p hp)).mpr ⟨p, hp, rfl⟩]
  refine ⟨heq, Nat.le_antisymm hlen ?_⟩
  rwa [heq, natDegree_locator hne] at hdeg

/-! ### Forney's evaluator (R250 to R253) -/

/-- `Ω = ∑_p W_p·∏_{q ≠ p} (1 - X_q·x)`. -/
noncomputable def evaluator (P : Finset ℕ) (X W : ℕ → K) : K[X] := ∑ p ∈ P, C (W p) * locator (P.erase p) X

theorem locFactor_mul_locator_erase {p : ℕ} (hp : p ∈ P) : locFactor X p * locator (P.erase p) X = locator P X :=
  Finset.mul_prod_erase P (locFactor X) hp

theorem eval_locator_erase_ne_zero (hne : ∀ p ∈ P, X p ≠ 0) (hX : Set.InjOn X P) {p : ℕ} (hp : p ∈ P) :
    (locator (P.erase p) X).eval (X p)⁻¹ ≠ 0 := fun hzero => by
  obtain ⟨q, hq, heq⟩ := (eval_locator_eq_zero_iff (hne p hp)).mp hzero
  obtain ⟨hqp, hq⟩ := Finset.mem_erase.mp hq
  exact hqp (hX hq hp heq)

theorem natDegree_evaluator_lt (hne : ∀ p ∈ P, X p ≠ 0) (hP : P.Nonempty) : (evaluator P X W).natDegree < P.card := by
  have hterm : ∀ p ∈ P, (C (W p) * locator (P.erase p) X).natDegree ≤ P.card - 1 := fun p hp => by
    refine (natDegree_C_mul_le ..).trans ?_
    rw [natDegree_locator fun q hq => hne q (Finset.mem_of_mem_erase hq), Finset.card_erase_of_mem hp]
  exact (natDegree_sum_le_of_forall_le _ _ hterm).trans_lt (Nat.sub_lt (Finset.card_pos.mpr hP) Nat.one_pos)

/-- At the inverse of a locator only that locator's term of Ω is left. -/
theorem eval_evaluator {p : ℕ} (hne : ∀ p ∈ P, X p ≠ 0) (hp : p ∈ P) :
    (evaluator P X W).eval (X p)⁻¹ = W p * (locator (P.erase p) X).eval (X p)⁻¹ := by
  rw [evaluator, eval_finsetSum, Finset.sum_eq_single_of_mem p hp fun q hq hqp => ?_, eval_mul, eval_C]
  have hzero : (locator (P.erase q) X).eval (X p)⁻¹ = 0 :=
    (eval_locator_eq_zero_iff (hne p hp)).mpr ⟨p, Finset.mem_erase.mpr ⟨hqp.symm, hp⟩, rfl⟩
  rw [eval_mul, hzero, mul_zero]

theorem eval_derivative_locator {p : ℕ} (hne : ∀ p ∈ P, X p ≠ 0) (hp : p ∈ P) :
    (derivative (locator P X)).eval (X p)⁻¹ = -X p * (locator (P.erase p) X).eval (X p)⁻¹ := by
  have hzero : (locFactor X p).eval (X p)⁻¹ = 0 := by rw [eval_locFactor, mul_inv_cancel₀ (hne p hp), sub_self]
  have hderiv : derivative (locFactor X p) = C (-X p) := by simp [locFactor]
  rw [← locFactor_mul_locator_erase hp, derivative_mul, hderiv, eval_add, eval_mul, eval_mul, hzero, zero_mul, add_zero,
    eval_C]

/-- A geometric sum as a polynomial: its product with `1 - X_p·x` is `1 - (X_p·x)^n`. -/
theorem coeff_locator_mul_geom {p : ℕ} (hp : p ∈ P) {i n : ℕ} (hi : i < n) :
    (locator P X * ∑ j ∈ Finset.range n, (C (X p) * Polynomial.X) ^ j).coeff i =
      (locator (P.erase p) X).coeff i := by
  have hhigh : (locator (P.erase p) X * (C (X p) * Polynomial.X) ^ n).coeff i = 0 := by
    rw [mul_pow, ← C_pow, mul_left_comm, coeff_C_mul, coeff_mul_X_pow', if_neg (Nat.not_le.mpr hi), mul_zero]
  rw [← locFactor_mul_locator_erase hp, mul_right_comm, locFactor, mul_neg_geom_sum, sub_mul, one_mul, coeff_sub,
    mul_comm (_ ^ n), hhigh, sub_zero]

/-- Below `n` the coefficients of Λ·S are those of Ω (R250). -/
theorem HasPowerSums.coeff_locator_mul (hS : HasPowerSums S n P X W) {i : ℕ} (hi : i < n) :
    (locator P X * S).coeff i = (evaluator P X W).coeff i := by
  have hgeom : ∀ j, j < n →
      S.coeff j = (∑ p ∈ P, C (W p) * ∑ k ∈ Finset.range n, (C (X p) * Polynomial.X) ^ k).coeff j := fun j hj => by
    simp only [hS j hj, finsetSum_coeff, coeff_C_mul, mul_pow, ← C_pow, coeff_X_pow, mul_ite, mul_one, mul_zero,
      Finset.sum_ite_eq, Finset.mem_range, hj, if_true]
  calc (locator P X * S).coeff i
      = (locator P X * ∑ p ∈ P, C (W p) * ∑ k ∈ Finset.range n, (C (X p) * Polynomial.X) ^ k).coeff i := by
        rw [Polynomial.coeff_mul, Polynomial.coeff_mul]
        refine Finset.sum_congr rfl fun kl hkl => ?_
        have hsum := Finset.HasAntidiagonal.mem_antidiagonal.mp hkl
        rw [hgeom kl.2 (by omega)]
    _ = (evaluator P X W).coeff i := by
        rw [evaluator, Finset.mul_sum, finsetSum_coeff, finsetSum_coeff]
        refine Finset.sum_congr rfl fun p hp => ?_
        rw [mul_left_comm, coeff_C_mul, coeff_C_mul, coeff_locator_mul_geom hp hi]

/-- Forney's Ω at the inverse of a locator, from the first `n` coefficients of Λ·S (R250, R252). -/
theorem HasPowerSums.sum_omega (hS : HasPowerSums S n P X W) (hne : ∀ p ∈ P, X p ≠ 0) (hcap : P.card ≤ n) {p : ℕ}
    (hp : p ∈ P) :
    ∑ i ∈ Finset.range n, (locator P X * S).coeff i * (X p)⁻¹ ^ i =
      W p * (locator (P.erase p) X).eval (X p)⁻¹ := by
  rw [← eval_evaluator hne hp, eval_eq_sum_range' ((natDegree_evaluator_lt hne ⟨p, hp⟩).trans_le hcap)]
  exact Finset.sum_congr rfl fun i hi => by rw [hS.coeff_locator_mul (Finset.mem_range.mp hi)]

end Sys2Proof.Machine
end

section
/-! Berlekamp-Massey finds the shortest recurrence (42_locator_bm.md R211, R212, R214).

Beside the degrees that `BmAcc.Bounded` keeps, Λ generates the syndromes read so far, and `x^m·B` generates them but
for the last, where its product with them has the stored discrepancy b. So a turn that corrects Λ cancels the
discrepancy, and L grows only where no shorter recurrence is left. -/

namespace Sys2Proof.Machine

open Polynomial

variable {prim : BitVec 9} {t : Tables} {K : Type} [Field K] (φ : ToField t K)

/-! ### The discrepancy and the update as polynomials -/

/-- The product of two lists of coefficients, term by term. -/
theorem ToField.coeff_poly_mul (a b : List Byte) (i : Nat) :
    (φ.poly a * φ.poly b).coeff i = ∑ j ∈ Finset.range (i + 1), φ.map (rd a j) * φ.map (rd b (i - j)) := by
  rw [coeff_mul, Finset.Nat.sum_antidiagonal_eq_sum_range_succ fun k l => (φ.poly a).coeff k * (φ.poly b).coeff l]
  simp only [φ.coeff_poly]

theorem BmAcc.Bounded.natDegree_lam_le {r : Nat} {p : BmAcc} (h : p.Bounded r) : (φ.poly p.lam).natDegree ≤ p.len :=
  Nat.le_of_lt_succ (φ.natDegree_poly_lt (Nat.succ_pos _) h.lam_deg)

theorem BmAcc.Bounded.coeff_lam_zero {r : Nat} {p : BmAcc} (h : p.Bounded r) : (φ.poly p.lam).coeff 0 = 1 := by
  rw [φ.coeff_poly, h.lam_one, φ.map_one]

/-- The discrepancy of iteration r is coefficient r of Λ·S. -/
theorem BmAcc.Bounded.map_discrepancy {r : Nat} {p : BmAcc} (h : p.Bounded r) (syn : List Byte) :
    φ.map (bmDiscrepancy t syn p r) = (φ.poly p.lam * φ.poly syn).coeff r := by
  have hlen : Finset.range p.len ⊆ Finset.range r := Finset.range_subset_range.mpr h.len_le
  have hzero : ∀ i ∈ Finset.range r, i ∉ Finset.range p.len →
      φ.map (rd p.lam (i + 1)) * φ.map (rd syn (r - (i + 1))) = 0 := fun i _ hi => by
    rw [h.lam_deg (i + 1) (Nat.lt_succ_of_le (Nat.le_of_not_lt (mt Finset.mem_range.mpr hi))), φ.map_zero, zero_mul]
  rw [bmDiscrepancy, φ.map_xor, φ.map_xorSum, φ.coeff_poly_mul, Finset.sum_range_succ', h.lam_one, φ.map_one, one_mul,
    Nat.sub_zero, add_comm, ← Finset.sum_subset hlen hzero]
  simp only [φ.map_mul]

/-- `Λ ⊕ c·x^m·B` loses no term to the array's size. -/
theorem BmAcc.Bounded.poly_bmUpdate {r npar : Nat} {p : BmAcc} (h : p.Bounded r) (hr : r < npar) (c : Byte) :
    φ.poly (bmUpdate t npar p c) = φ.poly p.lam + C (φ.map c) * (X ^ p.shift * φ.poly p.old) := by
  have hlen := h.len_le
  ext k
  rw [φ.coeff_poly, coeff_add, coeff_C_mul, coeff_X_pow_mul', φ.coeff_poly, φ.coeff_poly, bmUpdate, rd_fill]
  by_cases hk : k < npar + 1
  · by_cases hs : p.shift ≤ k
    · simp only [hk, hs, if_true, φ.map_xor, φ.map_mul]
    · simp only [hk, hs, if_true, if_false, mul_zero, add_zero]
  · have hold : p.shift ≤ k → rd p.old (k - p.shift) = 0#8 := fun hs => h.old_deg _ (by omega)
    rw [if_neg hk, h.lam_deg k (by omega)]
    split
    case isTrue hs => simp [hold hs, φ.map_zero]
    case isFalse => simp [φ.map_zero]

/-! ### The loop invariant -/

theorem Generates.mul_X {f S : K[X]} {len n : ℕ} (hf : Generates f S len n) :
    Generates (X * f) S (len + 1) (n + 1) := fun i hi hin => by
  obtain ⟨i, rfl⟩ : ∃ k, i = k + 1 := ⟨i - 1, by omega⟩
  rw [mul_assoc, coeff_X_mul]
  exact hf i (Nat.le_of_succ_le_succ hi) (Nat.lt_of_succ_lt_succ hin)

theorem Generates.succ {f S : K[X]} {len n : ℕ} (hf : Generates f S len n) (hn : (f * S).coeff n = 0) :
    Generates f S len (n + 1) := fun i hi hin => by
  obtain hlt | rfl := Nat.lt_succ_iff_lt_or_eq.mp hin
  · exact hf i hi hlt
  · exact hn

/-- `x^m·B`. -/
noncomputable def BmAcc.stored (p : BmAcc) : K[X] := X ^ p.shift * φ.poly p.old

/-- Before iteration r (R211, R212). With L = 0 no discrepancy was met, and `x^m·B` is not needed to cancel one. -/
structure BmAcc.Solves (S : K[X]) (r : Nat) (p : BmAcc) : Prop extends p.Bounded r where
  disc_ne : p.disc ≠ 0#8
  lam_gen : Generates (φ.poly p.lam) S p.len r
  old_gen : Generates (p.stored φ) S (r + 1 - p.len) r
  old_disc : 0 < p.len → (p.stored φ * S).coeff r = φ.map p.disc

theorem BmAcc.start_solves (S : K[X]) (npar : Nat) : (BmAcc.start npar).Solves φ S 0 where
  toBounded := BmAcc.start_bounded npar
  disc_ne := show 0x01#8 ≠ 0#8 by decide
  lam_gen i _ hi := absurd hi (Nat.not_lt_zero i)
  old_gen i _ hi := absurd hi (Nat.not_lt_zero i)
  old_disc hlen := absurd hlen (Nat.lt_irrefl 0)

/-- What a turn can do: keep Λ, correct it and lengthen L, or correct it alone. -/
theorem bmTurn_cases (t : Tables) (npar : Nat) (syn : List Byte) (p : BmAcc) (r : Nat) :
    (bmDiscrepancy t syn p r = 0#8 ∧ bmTurn t npar syn p r = { p with shift := p.shift + 1 }) ∨
    (bmDiscrepancy t syn p r ≠ 0#8 ∧ 2 * p.len ≤ r ∧ bmTurn t npar syn p r =
      { lam := bmUpdate t npar p (gfDiv t (bmDiscrepancy t syn p r) p.disc), old := p.lam, len := r + 1 - p.len,
        shift := 1, disc := bmDiscrepancy t syn p r }) ∨
    (bmDiscrepancy t syn p r ≠ 0#8 ∧ r < 2 * p.len ∧ bmTurn t npar syn p r =
      { p with lam := bmUpdate t npar p (gfDiv t (bmDiscrepancy t syn p r) p.disc), shift := p.shift + 1 }) := by
  simp only [bmTurn]
  split
  case isTrue hd => exact .inl ⟨hd, rfl⟩
  case isFalse hd =>
    split
    case isTrue hlen => exact .inr (.inl ⟨hd, hlen, rfl⟩)
    case isFalse hlen => exact .inr (.inr ⟨hd, Nat.lt_of_not_le hlen, rfl⟩)

section

variable {φ} {r npar : Nat} {p : BmAcc} {syn : List Byte} (h : t.Logs prim)
  (hp : p.Solves φ (φ.poly syn) r)
include h hp

/-- The corrected Λ generates syndrome r too, with either length that R211 gives it: with L = 0 the length r + 1 leaves
nothing to cancel, else `x^m·B` cancels the discrepancy. -/
theorem BmAcc.Solves.update_generates (hr : r < npar) {len : Nat} (hlen : p.len ≤ len) (hlen' : r + 1 - p.len ≤ len) :
    Generates (φ.poly (bmUpdate t npar p (gfDiv t (bmDiscrepancy t syn p r) p.disc))) (φ.poly syn) len (r + 1) := by
  have hcoeff : ∀ i, (φ.poly (bmUpdate t npar p (gfDiv t (bmDiscrepancy t syn p r) p.disc)) * φ.poly syn).coeff i =
      (φ.poly p.lam * φ.poly syn).coeff i +
        φ.map (gfDiv t (bmDiscrepancy t syn p r) p.disc) * (p.stored φ * φ.poly syn).coeff i := fun i => by
    rw [hp.poly_bmUpdate φ hr, add_mul, coeff_add, mul_assoc, coeff_C_mul, BmAcc.stored]
  intro i hi hir
  rw [hcoeff]
  obtain hlt | rfl := Nat.lt_succ_iff_lt_or_eq.mp hir
  · rw [hp.lam_gen i (hlen.trans hi) hlt, hp.old_gen i (hlen'.trans hi) hlt, mul_zero, add_zero]
  · rw [hp.old_disc (by omega), ← φ.map_mul, h.gfDiv_gfMul _ hp.disc_ne, ← hp.map_discrepancy, φ.map_add_self]

omit h in
/-- A turn that stores nothing shifts `x^m·B` by one. -/
theorem BmAcc.Solves.stored_kept {q : BmAcc} (hold : q.old = p.old) (hshift : q.shift = p.shift + 1)
    (hqlen : q.len = p.len) (hdisc : q.disc = p.disc) :
    Generates (q.stored φ) (φ.poly syn) (r + 1 + 1 - q.len) (r + 1) ∧
      (0 < q.len → (q.stored φ * φ.poly syn).coeff (r + 1) = φ.map q.disc) := by
  have hlen := hp.len_le
  have hstored : q.stored φ = X * p.stored φ := by
    rw [BmAcc.stored, hshift, hold, pow_succ', mul_assoc, BmAcc.stored]
  have hstart : r + 1 + 1 - q.len = r + 1 - p.len + 1 := by omega
  rw [hstored, hstart, mul_assoc, coeff_X_mul, hqlen, hdisc]
  exact ⟨hp.old_gen.mul_X, hp.old_disc⟩

omit h in
/-- A turn that lengthens L stores Λ with its discrepancy. -/
theorem BmAcc.Solves.stored_new {q : BmAcc} (hold : q.old = p.lam) (hshift : q.shift = 1)
    (hqlen : q.len = r + 1 - p.len) (hdisc : q.disc = bmDiscrepancy t syn p r) :
    Generates (q.stored φ) (φ.poly syn) (r + 1 + 1 - q.len) (r + 1) ∧
      (0 < q.len → (q.stored φ * φ.poly syn).coeff (r + 1) = φ.map q.disc) := by
  have hlen := hp.len_le
  have hstored : q.stored φ = X * φ.poly p.lam := by rw [BmAcc.stored, hshift, hold, pow_one]
  have hstart : r + 1 + 1 - q.len = p.len + 1 := by omega
  rw [hstored, hstart, mul_assoc, coeff_X_mul, hdisc, hp.map_discrepancy]
  exact ⟨hp.lam_gen.mul_X, fun _ => rfl⟩

theorem bmTurn_solves (hr : r < npar) : (bmTurn t npar syn p r).Solves φ (φ.poly syn) (r + 1) := by
  have hbounded := bmTurn_bounded t npar syn hp.toBounded
  have hlen := hp.len_le
  have hkept := hp.stored_kept (q := bmTurn t npar syn p r)
  have hnew := hp.stored_new (q := bmTurn t npar syn p r)
  obtain ⟨hd, hturn⟩ | ⟨hd, hle, hturn⟩ | ⟨hd, hlt, hturn⟩ := bmTurn_cases t npar syn p r <;>
    rw [hturn] at hbounded hkept hnew ⊢
  · have hzero : (φ.poly p.lam * φ.poly syn).coeff r = 0 := by rw [← hp.map_discrepancy, hd, φ.map_zero]
    obtain ⟨hgen, hdisc⟩ := hkept rfl rfl rfl rfl
    exact ⟨hbounded, hp.disc_ne, hp.lam_gen.succ hzero, hgen, hdisc⟩
  · have hupdate := hp.update_generates h hr (len := r + 1 - p.len) (by omega) (Nat.le_refl _)
    obtain ⟨hgen, hdisc⟩ := hnew rfl rfl rfl rfl
    exact ⟨hbounded, hd, hupdate, hgen, hdisc⟩
  · have hupdate := hp.update_generates h hr (len := p.len) (Nat.le_refl _) (by omega)
    obtain ⟨hgen, hdisc⟩ := hkept rfl rfl rfl rfl
    exact ⟨hbounded, hp.disc_ne, hupdate, hgen, hdisc⟩

omit h in
/-- L stays at most the length of any recurrence of all the syndromes, by Massey's bound. -/
theorem BmAcc.Solves.bmTurn_len_le {g : K[X]} {len : Nat} (hle : p.len ≤ len)
    (hg : Generates g (φ.poly syn) len (r + 1)) (hgdeg : g.natDegree ≤ len) (hgone : g.coeff 0 = 1) :
    (bmTurn t npar syn p r).len ≤ len := by
  obtain ⟨-, hturn⟩ | ⟨hd, -, hturn⟩ | ⟨-, -, hturn⟩ := bmTurn_cases t npar syn p r <;> rw [hturn]
  · exact hle
  · have hdisc : (φ.poly p.lam * φ.poly syn).coeff r ≠ 0 := by
      rw [← hp.map_discrepancy]
      exact mt φ.map_eq_zero.mp hd
    have hbound := hp.lam_gen.lt_add_of_discrepancy (hp.natDegree_lam_le φ) (hp.coeff_lam_zero φ) hdisc hg hgdeg hgone
    simp only
    omega
  · exact hle

end

theorem bmAfter_solves (h : t.Logs prim) (npar : Nat) (syn : List Byte) {r : Nat} (hr : r ≤ npar) :
    (bmAfter t npar syn r).Solves φ (φ.poly syn) r := by
  induction r with
  | zero => exact BmAcc.start_solves φ _ npar
  | succ r ih => exact bmAfter_succ t npar syn r ▸ bmTurn_solves h (ih (Nat.le_of_succ_le hr)) hr

theorem bm_solves (h : t.Logs prim) (npar : Nat) (syn : List Byte) : (bm t npar syn).Solves φ (φ.poly syn) npar :=
  bmAfter_solves φ h npar syn (Nat.le_refl npar)

/-- L is at most the length of any recurrence of the syndromes (R214). -/
theorem bm_len_le (h : t.Logs prim) {npar : Nat} {syn : List Byte} {g : K[X]} {len : Nat}
    (hg : Generates g (φ.poly syn) len npar) (hgdeg : g.natDegree ≤ len) (hgone : g.coeff 0 = 1) :
    (bm t npar syn).len ≤ len := by
  have hloop : ∀ r, r ≤ npar → (bmAfter t npar syn r).len ≤ len := fun r hr => by
    induction r with
    | zero => exact Nat.zero_le len
    | succ r ih =>
      rw [bmAfter_succ]
      exact (bmAfter_solves φ h npar syn (Nat.le_of_succ_le hr)).bmTurn_len_le (ih (Nat.le_of_succ_le hr))
        (fun i hi hir => hg i hi (by omega)) hgdeg hgone
  exact hloop npar (Nat.le_refl npar)

/-- Of at most NPAR/2 errors Berlekamp-Massey finds the locator polynomial (R214). -/
theorem bm_eq_locator (h : t.Logs prim) {npar : Nat} {syn : List Byte} {P : Finset ℕ} {loc W : ℕ → K}
    (hS : HasPowerSums (φ.poly syn) npar P loc W) (hne : ∀ p ∈ P, loc p ≠ 0) (hinj : Set.InjOn loc P)
    (hW : ∀ p ∈ P, W p ≠ 0) (hcap : 2 * P.card ≤ npar) :
    φ.poly (bm t npar syn).lam = locator P loc ∧ (bm t npar syn).len = P.card := by
  have hp := bm_solves φ h npar syn
  have hlen := bm_len_le φ h (hS.locator_generates hne) (natDegree_locator hne).le coeff_locator_zero
  exact hS.eq_locator hne hinj hW hcap hp.lam_gen (hp.natDegree_lam_le φ) (hp.coeff_lam_zero φ) hlen

end Sys2Proof.Machine
end

section
/-! Forney's magnitudes over the field (44_forney.md R250 to R253) and the corrections they make (45_block_decoder.md
R280 step 4). -/

namespace Sys2Proof.Machine

open Polynomial

/-! ### The locators `α^p` -/

section

variable {prim : BitVec 9} {t : Tables} (h : t.Logs prim)
include h

theorem Tables.Logs.gfMul_alpha (i j : Nat) : gfMul t (t.alpha i) (t.alpha j) = t.alpha (i + j) := by
  simp only [h.alpha_eq, h.gfMul_powX]

theorem Tables.Logs.alpha_inj {p q : Nat} (hp : p < 255) (hq : q < 255) (heq : t.alpha p = t.alpha q) : p = q := by
  rw [h.alpha_eq, h.alpha_eq] at heq
  exact h.orbit.powX_inj hp hq heq

variable {K : Type} [Field K] (φ : ToField t K)

omit h in
/-- The locator `X_p = α^p` of degree p. -/
def ToField.loc (p : Nat) : K := φ.map (t.alpha p)

theorem ToField.loc_ne_zero (p : Nat) : φ.loc p ≠ 0 := mt φ.map_eq_zero.mp (h.alpha_ne_zero p)

theorem ToField.loc_injOn {P : Finset ℕ} (hP : ∀ p ∈ P, p < 255) : Set.InjOn φ.loc P := fun p hp q hq heq =>
  h.alpha_inj (hP p hp) (hP q hq) (φ.injective heq)

theorem ToField.map_alphaNeg {p : Nat} (hp : p < 255) : φ.map (t.alphaNeg p) = (φ.loc p)⁻¹ := by
  have hone : gfMul t (t.alphaNeg p) (t.alpha p) = 0x01#8 := by
    rw [Tables.alphaNeg, h.gfMul_alpha, Nat.sub_add_cancel (Nat.le_of_lt hp), h.alpha_eq, h.orbit.closes]
  rw [← mul_eq_one_iff_eq_inv₀ (φ.loc_ne_zero h p), loc, ← φ.map_mul, hone, φ.map_one]

theorem ToField.map_gfDiv (a : Byte) {b : Byte} (hb : b ≠ 0#8) : φ.map (gfDiv t a b) = φ.map a / φ.map b := by
  rw [eq_div_iff (mt φ.map_eq_zero.mp hb), ← φ.map_mul, h.gfDiv_gfMul a hb]

end

/-! ### Forney's formula (R250 to R252) -/

variable {prim : BitVec 9} {t : Tables} {K : Type} [Field K] (φ : ToField t K)

theorem ToField.map_omegaCoeff (syn lam : List Byte) (i : Nat) :
    φ.map (omegaCoeff t syn lam i) = (φ.poly lam * φ.poly syn).coeff i := by
  rw [mul_comm, φ.coeff_poly_mul, omegaCoeff, φ.map_xorSum]
  simp only [φ.map_mul]

/-- The field has characteristic 2: twice a byte is zero. -/
theorem ToField.charTwo (φ : ToField t K) : CharP K 2 :=
  CharTwo.of_one_ne_zero_of_two_eq_zero one_ne_zero (by rw [← one_add_one_eq_two, ← φ.map_one, φ.map_add_self])

/-- The odd-degree terms are the derivative (R251). -/
theorem ToField.map_derivEval (h : t.Logs prim) {npar : Nat} {lam : List Byte} (hdeg : (φ.poly lam).natDegree ≤ npar)
    (y : Byte) : φ.map (derivEval t npar lam y) = (derivative (φ.poly lam)).eval (φ.map y) := by
  have := φ.charTwo
  rw [derivative_eval, sum_over_range' _ (fun _ => by simp) _ (Nat.lt_succ_of_le hdeg), derivEval, φ.map_xorSum]
  refine Finset.sum_congr rfl fun i _ => ?_
  rw [φ.coeff_poly, CharTwo.natCast_eq_mod]
  obtain heven | hodd := Nat.mod_two_eq_zero_or_one i
  · simp [heven, φ.map_zero]
  · simp [hodd, φ.map_mul, φ.map_pow h]

/-- The exponent of R252 takes `X^FCR` to X. -/
theorem Tables.Logs.gfMul_fcrShift (h : t.Logs prim) (fcr p : Nat) :
    gfMul t (t.alpha (p * fcrShift fcr)) (gfPow t (t.alpha p) fcr) = t.alpha p := by
  have hone : (fcrShift fcr + fcr) % 255 = 1 := by
    unfold fcrShift
    omega
  rw [h.gfPow_alpha, h.gfMul_alpha, ← Nat.mul_add, ← Tables.alpha_mod, Nat.mul_mod, hone, Nat.mul_one, Nat.mod_mod,
    Tables.alpha_mod]

/-- The weights of the errors `e`: the magnitudes times `X^FCR` (R195). -/
def ToField.weight (fcr : Nat) (e : Nat → Byte) (p : Nat) : K := φ.map (e p) * φ.loc p ^ fcr

/-- With the locator of the errors the magnitude of a degree is the error there (R252, R256). -/
theorem ToField.magnitude_eq (h : t.Logs prim) {npar fcr : Nat} {syn lam : List Byte} {P : Finset ℕ} {e : Nat → Byte}
    (hP : ∀ p ∈ P, p < 255) (hS : HasPowerSums (φ.poly syn) npar P φ.loc (φ.weight fcr e))
    (hlam : φ.poly lam = locator P φ.loc) (hcap : P.card ≤ npar) {p : Nat} (hp : p ∈ P) :
    magnitude t npar fcr (omegaOf t npar syn lam) lam p = e p := by
  have := φ.charTwo
  have hne : ∀ q ∈ P, φ.loc q ≠ 0 := fun q _ => φ.loc_ne_zero h q
  have hrest := eval_locator_erase_ne_zero hne (φ.loc_injOn h hP) hp
  have hy := φ.map_alphaNeg h (hP p hp)
  have hnum : φ.map (polyEval t (omegaOf t npar syn lam) (t.alphaNeg p)) =
      φ.weight fcr e p * (locator (P.erase p) φ.loc).eval (φ.loc p)⁻¹ := by
    rw [← hS.sum_omega hne hcap hp, φ.map_polyEval, omegaOf, length_fill, hy]
    refine Finset.sum_congr rfl fun i hi => ?_
    rw [rd_fill, if_pos (Finset.mem_range.mp hi), φ.map_omegaCoeff, hlam]
  have hden : φ.map (derivEval t npar lam (t.alphaNeg p)) =
      φ.loc p * (locator (P.erase p) φ.loc).eval (φ.loc p)⁻¹ := by
    rw [φ.map_derivEval h (by rwa [hlam, natDegree_locator hne]), hlam, hy, eval_derivative_locator hne hp,
      CharTwo.neg_eq]
  have hden0 : derivEval t npar lam (t.alphaNeg p) ≠ 0#8 := fun hzero =>
    mul_ne_zero (hne p hp) hrest (by rw [← hden, hzero, φ.map_zero])
  have hshift : φ.map (t.alpha (p * fcrShift fcr)) * φ.loc p ^ fcr = φ.loc p := by
    rw [loc, ← φ.map_pow h, ← φ.map_mul, h.gfMul_fcrShift]
  refine φ.injective ?_
  rw [magnitude, φ.map_mul, φ.map_gfDiv h _ hden0, hnum, hden, mul_div_mul_right _ _ hrest, weight, ← mul_div_assoc,
    div_eq_iff (hne p hp), mul_left_comm, hshift]

/-! ### The working copy (R280 step 4) -/

theorem patched_succ (posn mag : List Byte) (n : Nat) (w : List Byte) :
    patched posn mag (n + 1) w = patchTurn posn mag (patched posn mag n w) n := by
  simp [patched, List.range_succ]

/-- Each byte of the working copy gets every magnitude at its position. -/
theorem rd_patched (posn mag : List Byte) (n : Nat) {w : List Byte} {i : Nat} (hi : i < w.length) :
    rd (patched posn mag n w) i =
      rd w i ^^^ xorSum n fun k => if i = (rd posn k).toNat then rd mag k else 0#8 := by
  induction n with
  | zero => simp [patched]
  | succ n ih =>
    rw [patched_succ, patchTurn, xorSum_succ, ← BitVec.xor_assoc, ← ih]
    split
    case isTrue heq => rw [← heq, rd_set_self _ (by simpa using hi)]
    case isFalse hne => rw [rd_set_other _ (Ne.symm hne), BitVec.xor_zero]

/-- A sum with one term that is not 0. -/
theorem xorSum_eq_single {n k : Nat} {f : Nat → Byte} (hk : k < n) (hzero : ∀ i, i < n → i ≠ k → f i = 0#8) :
    xorSum n f = f k := by
  induction n with
  | zero => exact absurd hk (Nat.not_lt_zero k)
  | succ n ih =>
    rw [xorSum_succ]
    obtain hlt | rfl := Nat.lt_succ_iff_lt_or_eq.mp hk
    · rw [ih hlt fun i hi => hzero i (Nat.lt_succ_of_lt hi), hzero n (Nat.lt_succ_self n) (Nat.ne_of_gt hlt),
        BitVec.xor_zero]
    · rw [xorSum_eq_zero fun i hi => hzero i (Nat.lt_succ_of_lt hi) (Nat.ne_of_lt hi), BitVec.zero_xor]

end Sys2Proof.Machine
end

section
/-! The block decoder within its capacity (45_block_decoder.md R285, with R214, R234 and R256).

A block that differs from a codeword in at most NPAR/2 bytes is decoded to it: the stages find the degrees in error and
the errors there (`State.Inv.located_locator`, `State.Inv.mem_located_positions`, `State.Inv.rd_evaluated_mag`). Any
block that ends corrected is such a block, of the codeword it is decoded to (`State.Inv.corrected`). -/

open Sys2Proof.Claims

namespace Sys2Proof.Machine

/-! ### The errors of a block -/

/-- Coefficient p of the received polynomial of the block at `base` (R95). -/
def State.received (base : Nat) (s : State) (p : Nat) : Byte := Memory.read s.buf (base + (s.n - 1 - p))

/-- The polynomial with the coefficients `c` is a codeword (R192). -/
def State.IsCodeword (s : State) (c : Nat → Byte) : Prop :=
  ∀ j, j < s.npar → powerSum s.tab s.n c (s.tab.genRoot s.fcr j) = 0#8

/-- The degrees at which the block at `base` differs from `c`. -/
def State.errorDegrees (base : Nat) (s : State) (c : Nat → Byte) : Finset ℕ :=
  (Finset.range s.n).filter fun p => s.received base p ≠ c p

theorem State.mem_errorDegrees {base : Nat} {s : State} {c : Nat → Byte} {p : Nat} :
    p ∈ s.errorDegrees base c ↔ p < s.n ∧ s.received base p ≠ c p := by
  simp [State.errorDegrees]

theorem State.errorDegrees_lt {base : Nat} {s : State} {c : Nat → Byte} {p : Nat} (hp : p ∈ s.errorDegrees base c) :
    p < 255 := by
  have hn : s.n < 256 := s.cfgN.isLt
  have hpn := (State.mem_errorDegrees.mp hp).1
  omega

/-- The error at degree p. -/
def State.errorAt (base : Nat) (s : State) (c : Nat → Byte) (p : Nat) : Byte := s.received base p ^^^ c p

theorem State.errorAt_eq_zero {base : Nat} {s : State} {c : Nat → Byte} {p : Nat} :
    s.errorAt base c p = 0#8 ↔ s.received base p = c p :=
  BitVec.xor_eq_zero_iff

/-- The coefficients of LAMBDA are those of Berlekamp-Massey's locator. -/
theorem State.rd_bmBody_lam {s : State} (hnpar : s.npar ≤ s.build.nparMax) (i : Nat) :
    rd s.bmBody.lam i = rd (bm s.tab s.npar s.syn).lam i := by
  have hp := bm_bounded s.tab s.npar s.syn
  rw [State.bmBody_lam, rd_fillUsed]
  by_cases hi : i < s.npar + 1
  · rw [if_pos ⟨by omega, hi⟩]
  · rw [if_neg fun hlt => hi hlt.2, hp.lam_deg i (by have := hp.len_le; omega)]

theorem State.rd_forneyBody_mag {s : State} {k : Nat} (hk : k < s.build.nparMax) (hk' : k < s.nroots.toNat) :
    rd s.forneyBody.mag k =
      magnitude s.tab s.npar s.fcr (omegaOf s.tab s.npar s.syn s.lam) s.lam (s.rootAt k) := by
  rw [State.forneyBody, rd_fillUsed, if_pos ⟨hk, hk'⟩]

theorem State.rd_blockBytes {s : State} {k : Nat} (base : Nat) (hk : k < s.n) :
    rd (s.blockBytes base) k = Memory.read s.buf (base + k) := by
  rw [rd_eq_getElem (by simpa using hk)]
  simp [State.blockBytes, Memory.bytes]

/-- The byte of degree p after the corrections: every magnitude at its position is added (R280 step 4). -/
theorem State.rd_repaired {s : State} {base p : Nat} (hp : p < s.n) :
    rd (s.repaired base) (s.n - 1 - p) = s.received base p ^^^ xorSum (s.searched base).nroots.toNat fun k =>
      if s.n - 1 - p = (rd (s.searched base).posn k).toNat then rd (s.evaluated base).mag k else 0#8 := by
  have hlt : s.n - 1 - p < s.n := by omega
  rw [State.repaired, rd_patched _ _ _ (by simpa using hlt), State.rd_blockBytes base hlt, State.received]

/-- A search on a block finds no more roots than ROOT and POSN hold. -/
theorem State.Inv.lt_nparMax {s : State} {base k : Nat} (h : s.Inv) (hd : s.initDone = true)
    (hk : k < (s.located base).positions.length) : k < s.build.nparMax := by
  have hlen := (h.located hd base).positions_length_le (by simpa using hd) (State.bmBody_locV _)
  have hlocL : (s.located base).locL.toNat ≤ s.npar := State.bmBody_locL_le _
  have hnpar := h.npar_le hd
  omega

/-! ### The stages on a block within the capacity -/

section

variable {s : State} {base : Nat} {c : Nat → Byte} (h : s.Inv) (hd : s.initDone = true) (hc : s.IsCodeword c)
include h hd hc

section

variable {K : Type} [Field K] (φ : ToField s.tab K)

/-- The syndromes are those of the errors (R195). -/
theorem State.Inv.syn_hasPowerSums :
    HasPowerSums (φ.poly (s.syndBody base).syn) s.npar (s.errorDegrees base c) φ.loc
      (φ.weight s.fcr (s.errorAt base c)) := by
  have hlogs := h.logs hd
  intro j hj
  have herr : syndrome s.tab s.fcr s.n s.buf base j =
      xorSum s.n fun p => gfMul s.tab (s.errorAt base c p) (gfPow s.tab (s.tab.alpha p) (s.fcr + j)) := by
    have hcode : powerSum s.tab s.n c (s.tab.alpha (s.fcr + j)) = 0#8 := hc j hj
    calc syndrome s.tab s.fcr s.n s.buf base j
        = powerSum s.tab s.n (s.received base) (s.tab.alpha (s.fcr + j)) ^^^
            powerSum s.tab s.n c (s.tab.alpha (s.fcr + j)) := by
          rw [hcode, BitVec.xor_zero, syndrome, Tables.alpha_mod]
          refine xorSum_congr fun p hp => ?_
          rw [State.received, ← Nat.add_sub_assoc (by omega), ← Nat.add_sub_assoc (by omega)]
      _ = powerSum s.tab s.n (s.errorAt base c) (s.tab.alpha (s.fcr + j)) := (hlogs.powerSum_xor ..).symm
      _ = _ := hlogs.powerSum_alpha ..
  rw [φ.coeff_poly, h.rd_syndBody_syn hd, if_pos hj, herr, φ.map_xorSum, State.errorDegrees, Finset.sum_filter]
  refine Finset.sum_congr rfl fun p _ => ?_
  rw [φ.map_mul, φ.map_pow hlogs, ToField.weight, mul_assoc, ToField.loc, pow_add]
  split
  case isTrue => rfl
  case isFalse heq => rw [State.errorAt_eq_zero.mpr (not_not.mp heq), φ.map_zero, zero_mul]

omit hc in
theorem State.Inv.weight_ne_zero {p : Nat} (hp : p ∈ s.errorDegrees base c) :
    φ.weight s.fcr (s.errorAt base c) p ≠ 0 :=
  mul_ne_zero (mt φ.map_eq_zero.mp (mt State.errorAt_eq_zero.mp (State.mem_errorDegrees.mp hp).2))
    (pow_ne_zero _ (φ.loc_ne_zero (h.logs hd) p))

end

variable (hcap : 2 * (s.errorDegrees base c).card ≤ s.npar)
include hcap

/-- LAMBDA after BM is the locator of the errors, LOC_L their number (R214). -/
theorem State.Inv.located_locator {K : Type} [Field K] (φ : ToField s.tab K) :
    φ.poly (s.located base).lam = locator (s.errorDegrees base c) φ.loc ∧
      (s.located base).locL.toNat = (s.errorDegrees base c).card := by
  have hlogs := h.logs hd
  obtain ⟨hlam, hlen⟩ := bm_eq_locator φ hlogs (h.syn_hasPowerSums hd hc φ) (fun p _ => φ.loc_ne_zero hlogs p)
    (φ.loc_injOn hlogs fun _ => State.errorDegrees_lt) (fun _ => h.weight_ne_zero hd φ) hcap
  refine ⟨?_, (State.bmBody_locL_toNat _).trans hlen⟩
  rw [← hlam]
  ext i
  rw [φ.coeff_poly, φ.coeff_poly]
  exact congrArg φ.map (State.rd_bmBody_lam (s := s.syndBody base) (h.npar_le hd) i)

/-- A codeword with so few errors has none. -/
theorem State.Inv.errorDegrees_eq_empty (hcode : Codeword s s.buf base) : s.errorDegrees base c = ∅ := by
  have hlogs := h.logs hd
  obtain ⟨K, _, ⟨φ⟩⟩ := exists_toField hlogs
  refine Finset.eq_empty_of_forall_notMem fun p hp => h.weight_ne_zero hd φ hp ?_
  refine weight_eq_zero_of_powerSums (φ.loc_injOn hlogs fun _ => State.errorDegrees_lt) (fun j hj => ?_) hp
  have hj : j < s.npar := by omega
  rw [← h.syn_hasPowerSums hd hc φ j hj, φ.coeff_poly, h.rd_syndBody_syn hd, if_pos hj, φ.map_eq_zero]
  exact hcode j hj

/-- The Chien search finds the degrees in error. -/
theorem State.Inv.mem_located_positions {p : Nat} :
    p ∈ (s.located base).positions ↔ p ∈ s.errorDegrees base c := by
  have hlogs := h.logs hd
  obtain ⟨K, _, ⟨φ⟩⟩ := exists_toField hlogs
  obtain ⟨hlam, hlen⟩ := h.located_locator hd hc hcap φ
  have hdeg : ∀ i, s.npar + 1 ≤ i → rd (s.located base).lam i = 0#8 := fun i hi =>
    State.bmBody_lam_above _ (by rw [hlen]; omega)
  have hroot : p < 255 →
      (powerSum s.tab (s.npar + 1) (rd (s.located base).lam) (s.tab.alphaNeg p) = 0#8 ↔
        ∃ q ∈ s.errorDegrees base c, φ.loc q = φ.loc p) := fun hp => by
    rw [← φ.map_eq_zero, φ.map_powerSum_rd hlogs (Nat.succ_pos _) hdeg, hlam, φ.map_alphaNeg hlogs hp,
      eval_locator_eq_zero_iff (φ.loc_ne_zero hlogs p)]
  rw [(h.located hd base).mem_positions (by simpa using hd)]
  constructor
  · rintro ⟨hp, hzero⟩
    obtain ⟨q, hq, heq⟩ := (hroot hp).mp hzero
    rwa [← hlogs.alpha_inj (State.errorDegrees_lt hq) hp (φ.injective heq)]
  · intro hp
    exact ⟨State.errorDegrees_lt hp, (hroot (State.errorDegrees_lt hp)).mpr ⟨p, hp, rfl⟩⟩

omit h hd hc hcap in
theorem State.positions_nodup (u : State) : u.positions.Nodup := (chien_pairwise ..).nodup

/-- As many positions as errors. -/
theorem State.Inv.located_positions_length :
    (s.located base).positions.length = (s.errorDegrees base c).card := by
  rw [← List.toFinset_card_of_nodup (State.positions_nodup _)]
  congr 1
  ext p
  exact List.mem_toFinset.trans (h.mem_located_positions hd hc hcap)

/-- The magnitude of a position is the error there (R256). -/
theorem State.Inv.rd_evaluated_mag {k : Nat} (hk : k < (s.located base).positions.length) :
    rd (s.evaluated base).mag k = s.errorAt base c ((s.located base).positions.getD k 0) := by
  have hlogs := h.logs hd
  obtain ⟨K, _, ⟨φ⟩⟩ := exists_toField hlogs
  have hcard := h.located_positions_length hd hc hcap
  have hsize := h.lt_nparMax hd hk
  have hroot : (s.searched base).rootAt k = (s.located base).positions.getD k 0 :=
    State.rd_chienBody_root (s := s.located base) hsize hk
  have hmem : (s.located base).positions.getD k 0 ∈ s.errorDegrees base c :=
    (h.mem_located_positions hd hc hcap).mp (List.getD_eq_getElem _ _ hk ▸ List.getElem_mem hk)
  have hnroots : k < (s.searched base).nroots.toNat := by rwa [State.chienBody_nroots_toNat]
  rw [State.rd_forneyBody_mag (s := s.searched base) hsize hnroots, hroot]
  simp only [State.chienBody_tab, State.chienBody_npar, State.chienBody_fcr, State.chienBody_syn, State.chienBody_lam,
    State.bmBody_tab, State.bmBody_npar, State.bmBody_fcr, State.bmBody_syn, State.syndBody_tab, State.syndBody_npar,
    State.syndBody_fcr]
  exact φ.magnitude_eq hlogs (fun _ => State.errorDegrees_lt) (h.syn_hasPowerSums hd hc φ)
    (h.located_locator hd hc hcap φ).1 (by omega) hmem

/-- The working copy holds the codeword after the corrections. -/
theorem State.Inv.rd_repaired_of_capacity {p : Nat} (hp : p < s.n) :
    rd (s.repaired base) (s.n - 1 - p) = c p := by
  have hcard := h.located_positions_length hd hc hcap
  have hget : ∀ k, (hk : k < (s.located base).positions.length) →
      (s.located base).positions.getD k 0 = (s.located base).positions[k] := fun k hk => List.getD_eq_getElem _ _ hk
  have herr : ∀ k, (hk : k < (s.located base).positions.length) →
      (s.located base).positions[k] ∈ s.errorDegrees base c := fun k hk =>
    (h.mem_located_positions hd hc hcap).mp (List.getElem_mem hk)
  have hposn : ∀ k, (hk : k < (s.located base).positions.length) →
      (s.n - 1 - p = (rd (s.searched base).posn k).toNat ↔ (s.located base).positions[k] = p) := fun k hk => by
    have hlt := (State.mem_errorDegrees.mp (herr k hk)).1
    have hval : (rd (s.searched base).posn k).toNat = s.n - 1 - (s.located base).positions[k] := by
      rw [State.rd_chienBody_posn (s := s.located base) (h.lt_nparMax hd hk) hk, hget k hk]
      exact congrArg (s.n - 1 - ·) (Nat.mod_eq_of_lt hlt)
    omega
  rw [State.rd_repaired hp, State.chienBody_nroots_toNat]
  by_cases hmem : p ∈ s.errorDegrees base c
  · obtain ⟨k, hk, hkp⟩ := List.mem_iff_getElem.mp ((h.mem_located_positions hd hc hcap).mpr hmem)
    have hother : ∀ i, i < (s.located base).positions.length → i ≠ k →
        (if s.n - 1 - p = (rd (s.searched base).posn i).toNat then rd (s.evaluated base).mag i else 0#8) = 0#8 :=
      fun i hi hik => if_neg fun heq =>
        hik ((State.positions_nodup _).getElem_inj_iff.mp (((hposn i hi).mp heq).trans hkp.symm))
    rw [xorSum_eq_single hk hother, if_pos ((hposn k hk).mpr hkp), h.rd_evaluated_mag hd hc hcap hk, hget k hk, hkp,
      State.errorAt, ← BitVec.xor_assoc, BitVec.xor_self, BitVec.zero_xor]
  · have hsame : s.received base p = c p := by_contra fun hne => hmem (State.mem_errorDegrees.mpr ⟨hp, hne⟩)
    rw [xorSum_eq_zero fun i hi => if_neg fun heq => hmem ((hposn i hi).mp heq ▸ herr i hi), BitVec.xor_zero, hsame]

end

/-! ### Codewords as bytes -/

/-- A block of N bytes passes the recheck exactly if it is a codeword (R280 step 5, R192). -/
theorem State.syndromesZero_iff_isCodeword {s : State} (h : s.tab.Logs s.cfgPrim) {w : List Byte}
    (hw : w.length = s.n) : syndromesZero s.tab s.fcr s.npar w = true ↔ s.IsCodeword fun p => rd w (s.n - 1 - p) := by
  simp only [syndromesZero, List.all_eq_true, List.mem_range, beq_iff_eq, h.syndromeOf_eq_powerSum, hw]
  rfl

/-- Whether a polynomial is a codeword depends on its coefficients below N. -/
theorem State.IsCodeword.congr {s : State} {c c' : Nat → Byte} (hc : s.IsCodeword c)
    (heq : ∀ p, p < s.n → c p = c' p) : s.IsCodeword c' := fun j hj =>
  (xorSum_congr fun p hp => by rw [heq p hp]).symm.trans (hc j hj)

/-- The bytes that differ, counted from the first byte on, are as many as the degrees at which they differ. -/
theorem length_filter_range_reflect (n : Nat) (f : Nat → Bool) :
    ((List.range n).filter f).length = ((Finset.range n).filter fun p => f (n - 1 - p) = true).card := by
  have hcard : ((Finset.range n).filter fun k => f k = true).card =
      ((List.range n).filter fun k => f k = true).length := rfl
  simp only [Bool.decide_eq_true] at hcard
  rw [← hcard, Finset.card_filter, Finset.card_filter]
  exact (Finset.sum_range_reflect (fun k => if f k = true then 1 else 0) n).symm

theorem State.length_filter_eq_card {s : State} {base : Nat} {w : Nat → Byte} {f : Nat → Bool}
    (hf : ∀ k, f k = true ↔ Memory.read s.buf (base + k) ≠ w k) :
    ((List.range s.n).filter f).length = (s.errorDegrees base fun p => w (s.n - 1 - p)).card := by
  rw [length_filter_range_reflect]
  simp only [hf]
  rfl

/-! ### The outcome of a block -/

/-- A block within the capacity ends OK, restored (R285 item 2). -/
theorem BlockRun.restores {base : Nat} {s : State} {e : BlockEnd} (hrun : BlockRun base s e) (h : s.Inv)
    (hd : s.initDone = true) {c : Nat → Byte} (hc : s.IsCodeword c)
    (hcap : (s.errorDegrees base c).card ≤ s.capacity) :
    e.res = .ok ∧ e.ncorr = (s.errorDegrees base c).card ∧
      ∀ p, p < s.n → Memory.read e.st.buf (base + (s.n - 1 - p)) = c p := by
  have hlogs := h.logs hd
  have hcap2 : 2 * (s.errorDegrees base c).card ≤ s.npar := by
    unfold State.capacity at hcap
    omega
  obtain ⟨K, _, ⟨φ⟩⟩ := exists_toField hlogs
  have hlen : (s.located base).locL.toNat = (s.errorDegrees base c).card := (h.located_locator hd hc hcap2 φ).2
  have hroots : (s.searched base).nroots.toNat = (s.errorDegrees base c).card :=
    (State.chienBody_nroots_toNat _).trans (h.located_positions_length hd hc hcap2)
  have hrepaired : ∀ p, p < s.n → rd (s.repaired base) (s.n - 1 - p) = c p := fun p hp =>
    h.rd_repaired_of_capacity hd hc hcap2 hp
  cases hrun with
  | codeword hzero =>
    have hempty := h.errorDegrees_eq_empty hd hc hcap2 ((syndromesZero_iff hlogs s.buf base).mp hzero)
    refine ⟨rfl, by rw [hempty]; rfl, fun p hp => by_contra fun hne => ?_⟩
    exact absurd (State.mem_errorDegrees.mpr ⟨hp, hne⟩) (hempty ▸ Finset.notMem_empty p)
  | degree _ hover => exact absurd (hlen ▸ hover) (Nat.not_lt.mpr hcap)
  | roots _ _ hmismatch => exact absurd (BitVec.eq_of_toNat_eq (hroots.trans hlen.symm)) hmismatch
  | recheck _ _ _ hfail =>
    have hpass := (State.syndromesZero_iff_isCodeword hlogs (s.length_repaired base)).mpr
      (hc.congr fun p hp => (hrepaired p hp).symm)
    exact absurd (hpass.symm.trans hfail) nofun
  | corrected _ _ _ _ =>
    refine ⟨rfl, hroots, fun p hp => ?_⟩
    rw [State.restored_buf, Memory.read_writeAll_self _ _ _ h.bufWf (by rw [State.length_repaired]; omega)]
    exact hrepaired p hp

/-- The corrections change at most as many bytes as roots were found. -/
theorem State.card_repaired_le (base : Nat) (s : State) :
    (s.errorDegrees base fun p => rd (s.repaired base) (s.n - 1 - p)).card ≤ (s.searched base).nroots.toNat := by
  have hsub : (s.errorDegrees base fun p => rd (s.repaired base) (s.n - 1 - p)) ⊆
      (Finset.range (s.searched base).nroots.toNat).image fun k => s.n - 1 - (rd (s.searched base).posn k).toNat := by
    intro p hp
    obtain ⟨hpn, hne⟩ := State.mem_errorDegrees.mp hp
    by_contra hmem
    refine hne ?_
    rw [State.rd_repaired hpn, xorSum_eq_zero fun k hk => if_neg fun heq => hmem (Finset.mem_image.mpr
      ⟨k, Finset.mem_range.mpr hk, by omega⟩), BitVec.xor_zero]
  exact (Finset.card_le_card hsub).trans (Finset.card_image_le.trans (Finset.card_range _).le)

/-- A block that ends corrected lies within the capacity of the codeword it is corrected to, so the roots found are the
degrees that change (R285 item 3, R234). -/
theorem State.Inv.corrected {s : State} {base : Nat} (h : s.Inv) (hd : s.initDone = true)
    (hlen : (s.located base).locL.toNat ≤ s.capacity) (hroots : (s.searched base).nroots = (s.located base).locL)
    (hcheck : syndromesZero s.tab s.fcr s.npar (s.repaired base) = true) :
    (s.errorDegrees base fun p => rd (s.repaired base) (s.n - 1 - p)).card = (s.searched base).nroots.toNat ∧
      ∀ k, k < (s.searched base).nroots.toNat → (rd (s.searched base).root k).toNat < s.n := by
  have hc := (State.syndromesZero_iff_isCodeword (h.logs hd) (s.length_repaired base)).mp hcheck
  have hcap : 2 * (s.errorDegrees base fun p => rd (s.repaired base) (s.n - 1 - p)).card ≤ s.npar := by
    have hle := s.card_repaired_le base
    rw [hroots] at hle
    unfold State.capacity at hlen
    omega
  have hcard := h.located_positions_length hd hc hcap
  have hnroots : (s.searched base).nroots.toNat = (s.located base).positions.length := State.chienBody_nroots_toNat _
  refine ⟨(hnroots.trans hcard).symm, fun k hk => ?_⟩
  have hk : k < (s.located base).positions.length := hnroots ▸ hk
  rw [State.rd_chienBody_root (s := s.located base) (h.lt_nparMax hd hk) hk, List.getD_eq_getElem _ _ hk]
  exact (State.mem_errorDegrees.mp ((h.mem_located_positions hd hc hcap).mp (List.getElem_mem hk))).1

/-- NCORR as the host reads it. -/
theorem BlockEnd.toNat_record_ncorr {base : Nat} {s : State} {e : BlockEnd} (hout : BlockOutcome base s e)
    (blk : BitVec 16) : (e.record blk).ncorr.toNat = e.ncorr := by
  have hnpar : s.npar < 256 := s.cfgNpar.isLt
  have hle := hout.ncorr_le
  exact BitVec.toNat_ofNat .. |>.trans (Nat.mod_eq_of_lt (by omega))

/-- A correction changes exactly NCORR bytes and found no root at or above N (R285 item 3, R234). -/
theorem BlockRun.changes {base : Nat} {s : State} {e : BlockEnd} (hrun : BlockRun base s e) (h : s.Inv)
    (hd : s.initDone = true) (hres : e.res = .ok) (hz : e.st.synZero = false) :
    ((List.range s.n).filter fun k =>
        Memory.read e.st.buf (base + k) != Memory.read s.buf (base + k)).length = e.ncorr ∧
      ∀ k, k < e.st.nroots.toNat → (rd e.st.root k).toNat < s.n := by
  cases hrun with
  | codeword hzero => exact absurd (hzero.symm.trans hz) nofun
  | degree | roots | recheck => exact absurd hres nofun
  | corrected _ hlen hroots hcheck =>
    obtain ⟨hcard, hlt⟩ := h.corrected hd hlen hroots hcheck
    refine ⟨?_, hlt⟩
    have hfilter : ((List.range s.n).filter fun k =>
        Memory.read (s.restored base).buf (base + k) != Memory.read s.buf (base + k)) =
          (List.range s.n).filter fun k => Memory.read s.buf (base + k) != rd (s.repaired base) k :=
      List.filter_congr fun k hk => by
        rw [State.restored_buf, Memory.read_writeAll_self _ _ _ h.bufWf (by simpa using hk), bne_comm]
        rfl
    rw [hfilter, State.length_filter_eq_card fun k => bne_iff_ne]
    exact hcard

/-- Settles O47: the stages find the errors of a block within the capacity; a block that ends corrected is one. -/
theorem decodeCorrectsUpToCapacity : Obligations.DecodeCorrectsUpToCapacity := by
  constructor
  · intro s blk c h hd hblk n hzero hcap
    have hexec := exec_decodeBlk hd hblk
    have hrun := s.decodeBlock_run (s.blockBase blk)
    have hncorr := BlockEnd.toNat_record_ncorr (hrun.outcome h hd) blk
    generalize s.decodeBlock (s.blockBase blk) = e at *
    have hc : s.IsCodeword fun p => c (s.n - 1 - p) := fun j hj => by
      rw [Tables.genRoot, ← Tables.alpha_mod]
      exact hzero j hj
    have hcard := State.length_filter_eq_card (s := s) (base := s.blockBase blk) (w := c) fun k => bne_iff_ne
    obtain ⟨hres, hnum, hbytes⟩ := hrun.restores h hd hc (hcard.symm.trans_le hcap)
    refine ⟨_, hexec, hres, hncorr.trans (hnum.trans hcard.symm), fun k (hk : k < s.n) => ?_⟩
    have hbyte := hbytes (s.n - 1 - k) (by omega)
    rwa [show s.n - 1 - (s.n - 1 - k) = k by omega] at hbyte
  · intro s blk h hd hblk
    have hexec := exec_decodeBlk hd hblk
    have hrun := s.decodeBlock_run (s.blockBase blk)
    have hout := hrun.outcome h hd
    have hncorr := BlockEnd.toNat_record_ncorr hout blk
    generalize s.decodeBlock (s.blockBase blk) = e at *
    refine ⟨_, hexec, fun hres hz => ?_, fun hz ⟨k, hk, hge⟩ hres => ?_⟩
    · exact ⟨(hrun.changes h hd hres hz).1.trans hncorr.symm, hncorr.trans_le hout.ncorr_le⟩
    · exact absurd ((hrun.changes h hd hres hz).2 k hk) (Nat.not_lt.mpr hge)

end Sys2Proof.Machine
end

section
/-! The command BM (42_locator_bm.md R211 to R213): its end, its recurrence, and how long the locator can get. -/

open Sys2Proof.Claims

namespace Sys2Proof.Machine

/-! ### The first syndrome that is not 0 -/

theorem bmDiscrepancy_of_len_zero (t : Tables) (syn : List Byte) {p : BmAcc} (hlen : p.len = 0) (r : Nat) :
    bmDiscrepancy t syn p r = rd syn r := by
  rw [bmDiscrepancy, hlen, xorSum_zero, BitVec.xor_zero]

/-- Over zeros there is no discrepancy, and L stays 0. -/
theorem bmAfter_len_of_zeros (t : Tables) (npar : Nat) {syn : List Byte} {r : Nat}
    (hzero : ∀ j, j < r → rd syn j = 0#8) : (bmAfter t npar syn r).len = 0 := by
  induction r with
  | zero => rfl
  | succ r ih =>
    have hlen := ih fun j hj => hzero j (Nat.lt_succ_of_lt hj)
    have hdisc := (bmDiscrepancy_of_len_zero t syn hlen r).trans (hzero r (Nat.lt_succ_self r))
    rw [bmAfter_succ, bmTurn, if_pos hdisc]
    exact hlen

/-- The first syndrome that is not 0 makes L one more than its index. -/
theorem bmAfter_len_of_first (t : Tables) (npar : Nat) {syn : List Byte} {r : Nat}
    (hzero : ∀ j, j < r → rd syn j = 0#8) (hne : rd syn r ≠ 0#8) : (bmAfter t npar syn (r + 1)).len = r + 1 := by
  have hlen := bmAfter_len_of_zeros t npar hzero
  have hdisc : bmDiscrepancy t syn (bmAfter t npar syn r) r ≠ 0#8 := by rwa [bmDiscrepancy_of_len_zero t syn hlen]
  rw [bmAfter_succ, bmTurn, if_neg hdisc, hlen, if_pos (Nat.zero_le r)]
  rfl

/-- Syndromes of which S[r], the last one, alone is not 0. -/
def lastSyndrome (r : Nat) : List Byte := fill (r + 1) fun i => if i = r then 0x01#8 else 0#8

theorem rd_lastSyndrome (r : Nat) {j : Nat} (hj : j ≤ r) :
    rd (lastSyndrome r) j = if j = r then 0x01#8 else 0#8 := by
  rw [lastSyndrome, rd_fill, if_pos (Nat.lt_succ_of_le hj)]

/-- A last syndrome alone makes L the number of syndromes, above NPAR/2 (R212). -/
theorem exists_bm_len_above (t : Tables) {npar : Nat} (hnpar : 2 ≤ npar) :
    ∃ syn, npar / 2 < (bm t npar syn).len := by
  obtain ⟨r, rfl⟩ := Nat.exists_eq_succ_of_ne_zero (n := npar) (by omega)
  have hzero : ∀ j, j < r → rd (lastSyndrome r) j = 0#8 := fun j hj =>
    (rd_lastSyndrome r (Nat.le_of_lt hj)).trans (if_neg (Nat.ne_of_lt hj))
  have hne : rd (lastSyndrome r) r ≠ 0#8 := by
    rw [rd_lastSyndrome r (Nat.le_refl r), if_pos rfl]
    decide
  exact ⟨lastSyndrome r, by rw [bm, bmAfter_len_of_first t _ hzero hne]; omega⟩

/-! ### The recurrence -/

/-- A recurrence of length L, term by term, is a coefficient of Λ·S. -/
theorem ToField.map_recurrence {t : Tables} {K : Type} [Field K] (φ : ToField t K) {lam : List Byte} {len r : Nat}
    (hdeg : ∀ i, len < i → rd lam i = 0#8) (hr : len ≤ r) (syn : List Byte) :
    φ.map (xorSum (len + 1) fun i => gfMul t (rd lam i) (rd syn (r - i))) = (φ.poly lam * φ.poly syn).coeff r := by
  rw [φ.map_xorSum, φ.coeff_poly_mul]
  simp only [φ.map_mul]
  refine Finset.sum_subset (Finset.range_subset_range.mpr (Nat.succ_le_succ hr)) fun i _ hi => ?_
  rw [hdeg i (by simpa using hi), φ.map_zero, zero_mul]

/-- The locator generates every syndrome from S[L] on (R211). -/
theorem bm_recurrence {prim : BitVec 9} {t : Tables} (h : t.Logs prim) {npar : Nat} {syn : List Byte} {r : Nat}
    (hlen : (bm t npar syn).len ≤ r) (hr : r < npar) :
    xorSum ((bm t npar syn).len + 1) (fun i => gfMul t (rd (bm t npar syn).lam i) (rd syn (r - i))) = 0#8 := by
  obtain ⟨K, _, ⟨φ⟩⟩ := exists_toField h
  have hp := bm_solves φ h npar syn
  rw [← φ.map_eq_zero, φ.map_recurrence hp.lam_deg hlen]
  exact hp.lam_gen r hlen hr

/-! ### BM (R213) -/

theorem exec_bm {s : State} (hd : s.initDone = true) (hsyn : s.synV = true) :
    exec .bm s = .next (s.bmBody.complete s.bmBody.bmRes) := by
  simp [exec, execBm, hd, hsyn]

/-- Settles O37: the locator that the loop leaves generates the syndromes, and LAMBDA and LOC_L hold it. -/
theorem bmFindsRecurrence : Obligations.BmFindsRecurrence := by
  intro s h hd hsyn
  have hlocL := s.bmBody_locL_toNat
  refine ⟨_, exec_bm hd hsyn, rfl, s.bmBody_locL_le, length_fillUsed .., s.bmBody_lam_zero,
    fun i => s.bmBody_lam_above, fun r hle hr => ?_, fun hzero => ?_⟩
  · have hlen : (bm s.tab s.npar s.syn).len ≤ r := hlocL.symm.trans_le hle
    have hrec := bm_recurrence (h.logs hd) hlen hr
    simp only [← State.rd_bmBody_lam (h.npar_le hd), ← hlocL] at hrec
    exact hrec
  · exact BitVec.eq_of_toNat_eq (hlocL.trans (bmAfter_len_of_zeros s.tab s.npar hzero))

/-- Settles O38: the loop's invariant, read off before each iteration; a last syndrome alone makes L too long; and BM in
sequence ends with no write to ERR. -/
theorem bmLoopInvariants : Obligations.BmLoopInvariants := by
  refine ⟨fun prim t npar syn htab => ⟨fun r hr => ?_, (bm_bounded t npar syn).len_le, exists_bm_len_above t⟩,
    fun s t hd hsyn hexec => ?_⟩
  · obtain ⟨K, _, ⟨φ⟩⟩ := exists_toField (buildTables_logs htab)
    have hp := bmAfter_solves φ (buildTables_logs htab) npar syn hr
    have hold : ∀ k, rd (bmAfter t npar syn r).old k ≠ 0#8 →
        k + (bmAfter t npar syn r).shift ≤ r + 1 - (bmAfter t npar syn r).len := fun k hk => by
      have hbound := mt (hp.old_deg k) hk
      omega
    exact ⟨hp.disc_ne, hp.len_le, hp.shift_pos, hp.lam_one, hp.lam_deg, hold⟩
  · obtain rfl := Host.Outcome.next.inj ((exec_bm hd hsyn).symm.trans hexec)
    rfl

end Sys2Proof.Machine
end

section
/-! FORNEY after a Chien search that found LOC_L roots (43_chien.md R233, 44_forney.md R253): the locator's degree is at
most the number of its roots, so it has no repeated root and its derivative is 0 at none of them. -/

open Sys2Proof.Claims

namespace Sys2Proof.Machine

/-! ### Simple roots -/

/-- A polynomial of degree at most the number of its known roots has no repeated root. -/
theorem eval_derivative_ne_zero_of_roots {K : Type} [Field K] {f : Polynomial K} {P : Finset ℕ} {y : ℕ → K}
    (hf : f ≠ 0) (hy : Set.InjOn y P) (hroot : ∀ p ∈ P, f.eval (y p) = 0) (hdeg : f.natDegree ≤ P.card)
    {p : ℕ} (hp : p ∈ P) : f.derivative.eval (y p) ≠ 0 := fun hderiv => by
  classical
  have hroots : f.roots = (P.image y).val :=
    Polynomial.roots_eq_of_natDegree_le_card_of_ne_zero (Finset.forall_mem_image.mpr hroot)
      (hdeg.trans_eq (Finset.card_image_of_injOn hy).symm) hf
  have hsimple : f.rootMultiplicity (y p) ≤ 1 := by
    rw [← Polynomial.count_roots, hroots]
    exact Multiset.nodup_iff_count_le_one.mp (P.image y).nodup _
  exact hsimple.not_gt ((Polynomial.one_lt_rootMultiplicity_iff_isRoot hf).mpr ⟨hroot p hp, hderiv⟩)

section

variable {prim : BitVec 9} {t : Tables} {K : Type} [Field K] (φ : ToField t K) {lam : List Byte}

theorem ToField.poly_ne_zero (hone : rd lam 0 = 0x01#8) : φ.poly lam ≠ 0 := fun hzero => by
  have hcoeff := φ.coeff_poly lam 0
  rw [hzero, hone, φ.map_one, Polynomial.coeff_zero] at hcoeff
  exact zero_ne_one hcoeff

theorem ToField.alphaNeg_injOn_chien (h : t.Logs prim) :
    Set.InjOn (fun p => φ.map (t.alphaNeg p)) (chien t lam).toFinset := fun _ hp _ hq heq =>
  h.alphaNeg_inj (mem_chien.mp (List.mem_toFinset.mp hp)).1 (mem_chien.mp (List.mem_toFinset.mp hq)).1
    (φ.injective heq)

theorem ToField.eval_poly_of_mem_chien {p : Nat} (hp : p ∈ chien t lam) :
    (φ.poly lam).eval (φ.map (t.alphaNeg p)) = 0 := by
  rw [φ.eval_poly, (mem_chien.mp hp).2, φ.map_zero]

end

/-- Λ' is 0 at no root of a Chien search that found as many roots as Λ's degree allows (R253). -/
theorem derivEval_ne_zero_of_mem_chien {prim : BitVec 9} {t : Tables} (h : t.Logs prim) {npar : Nat} {lam : List Byte}
    (hone : rd lam 0 = 0x01#8) (hdeg : ∀ i, (chien t lam).length < i → rd lam i = 0#8)
    (hle : (chien t lam).length ≤ npar) {p : Nat} (hp : p ∈ chien t lam) :
    derivEval t npar lam (t.alphaNeg p) ≠ 0#8 := by
  obtain ⟨K, _, ⟨φ⟩⟩ := exists_toField h
  have hnat : (φ.poly lam).natDegree ≤ (chien t lam).length :=
    Nat.le_of_lt_succ (φ.natDegree_poly_lt (Nat.succ_pos _) hdeg)
  have hcard : (chien t lam).toFinset.card = (chien t lam).length :=
    List.toFinset_card_of_nodup (chien_pairwise t lam).nodup
  rw [ne_eq, ← φ.map_eq_zero, φ.map_derivEval h (hnat.trans hle)]
  exact eval_derivative_ne_zero_of_roots (φ.poly_ne_zero hone) (φ.alphaNeg_injOn_chien h)
    (fun q hq => φ.eval_poly_of_mem_chien (List.mem_toFinset.mp hq)) (hnat.trans_eq hcard.symm)
    (List.mem_toFinset.mpr hp)

/-! ### The denominators (R252, R254) -/

theorem derivEval_take (t : Tables) (npar : Nat) (lam : List Byte) (y : Byte) :
    derivEval t npar (lam.take (npar + 1)) y = derivEval t npar lam y :=
  xorSum_congr fun i hi => by rw [rd_take, if_pos hi]

theorem denominator_eq (s : State) (k : Nat) :
    denominator s k = derivEval s.tab s.npar s.lam (s.tab.alphaNeg (s.rootAt k)) := rfl

theorem State.zeroDenominator_eq_false {s : State} :
    s.zeroDenominator = false ↔ ∀ k, k < s.nroots.toNat → denominator s k ≠ 0#8 := by
  simp [State.zeroDenominator, denominator_eq]

/-- FORNEY in sequence and without a zero denominator completes (R254). -/
theorem exec_forney {s : State} (hd : s.initDone = true) (hroot : s.rootV = true)
    (hden : ∀ k, k < s.nroots.toNat → denominator s k ≠ 0#8) :
    exec .forney s = .next (s.forneyBody.complete .ok) := by
  simp [exec, execForney, hd, hroot, State.zeroDenominator_eq_false.mpr hden]

/-! ### After a full factoring -/

section

variable {s : State} (h : s.Inv) (hd : s.initDone = true) (hloc : s.locV = true)
  (hfull : s.positions.length = s.locL.toNat)
include h hd hloc hfull

theorem State.Inv.derivEval_ne_zero {p : Nat} (hp : p ∈ s.positions) :
    derivEval s.tab s.npar s.lam (s.tab.alphaNeg p) ≠ 0#8 := by
  rw [← derivEval_take]
  refine derivEval_ne_zero_of_mem_chien (h.logs hd) ?_ (fun i hi => ?_) (hfull.trans_le (h.locLe hd)) hp
  · rw [rd_take, if_pos (Nat.succ_pos _), h.lamOne hloc]
  · rw [rd_take, h.lamDeg hloc i (hfull.symm.trans_lt hi), ite_self]

theorem State.Inv.denominator_chienBody_ne_zero {k : Nat} (hk : k < s.chienBody.nroots.toNat) :
    denominator s.chienBody k ≠ 0#8 := by
  have hlen : k < s.positions.length := s.chienBody_nroots_toNat ▸ hk
  have hsize : k < s.build.nparMax := hlen.trans_le (hfull.trans_le ((h.locLe hd).trans (h.npar_le hd)))
  have hroot : s.chienBody.rootAt k = s.positions[k] :=
    (State.rd_chienBody_root hsize hlen).trans (List.getD_eq_getElem _ _ hlen)
  rw [denominator_eq, hroot]
  exact h.derivEval_ne_zero hd hloc hfull (List.getElem_mem hlen)

end

/-- Settles O41: CHIEN ends OK only when it found LOC_L roots, and then every root is simple. -/
theorem forneyRunsAfterFullFactoring : Obligations.ForneyRunsAfterFullFactoring := by
  intro s t h hd hloc hexec hok
  obtain rfl := Host.Outcome.next.inj ((exec_chien hd hloc).symm.trans hexec)
  have hfull : s.positions.length = s.locL.toNat := by
    by_contra hne
    rw [State.complete_res, State.chienRes_eq, if_neg hne] at hok
    exact absurd hok (by decide)
  have hden : ∀ k, k < s.chienBody.nroots.toNat → denominator s.chienBody k ≠ 0#8 := fun _ =>
    h.denominator_chienBody_ne_zero hd hloc hfull
  exact ⟨hden, _, exec_forney hd rfl hden, rfl⟩

end Sys2Proof.Machine
end

section
/-! The commands FORNEY and CORRECT (44_forney.md R250 to R255): the magnitudes as quotients, and the bytes of BUF they
are added to. -/

open Sys2Proof.Claims

namespace Sys2Proof.Machine

/-! ### FORNEY (R250 to R252, R254) -/

/-- The equation of R252 without its division: the magnitude times the denominator times `X^FCR` is `X ⊗ Ω(X^-1)`. -/
theorem Tables.Logs.magnitude_gfMul_derivEval {prim : BitVec 9} {t : Tables} (h : t.Logs prim) {npar : Nat}
    (fcr : Nat) (om : List Byte) {lam : List Byte} {p : Nat} (hden : derivEval t npar lam (t.alphaNeg p) ≠ 0#8) :
    gfMul t (gfMul t (magnitude t npar fcr om lam p) (derivEval t npar lam (t.alphaNeg p)))
        (gfPow t (t.alpha p) fcr) =
      gfMul t (t.alpha p) (polyEval t om (t.alphaNeg p)) := by
  rw [magnitude, h.gfMul_assoc (t.alpha _), h.gfDiv_gfMul _ hden, gfMul_comm t (t.alpha (p * _)), h.gfMul_assoc,
    h.gfMul_fcrShift, gfMul_comm]

theorem State.rd_forneyBody_omega (s : State) (i : Nat) :
    rd s.forneyBody.omega i =
      if i < s.build.nparMax ∧ i < s.npar then omegaCoeff s.tab s.syn s.lam i else 0#8 := by
  rw [State.forneyBody, rd_fillUsed, omegaOf, rd_fill]
  exact if_ctx_congr Iff.rfl (fun hi => if_pos hi.2) fun _ => rfl

theorem State.rd_forneyBody_mag_above {s : State} {k : Nat} (hk : s.nroots.toNat ≤ k) :
    rd s.forneyBody.mag k = 0#8 := by
  rw [State.forneyBody, rd_fillUsed, if_neg fun hlt => Nat.not_lt.mpr hk hlt.2]

/-- Ω at a point, by the entries of OMEGA that FORNEY leaves. -/
theorem State.Inv.polyEval_omegaOf {s : State} (h : s.Inv) (hd : s.initDone = true) (y : Byte) :
    polyEval s.tab (omegaOf s.tab s.npar s.syn s.lam) y = powerSum s.tab s.npar (rd s.forneyBody.omega) y := by
  rw [(h.logs hd).polyEval_eq_powerSum, omegaOf, length_fill]
  refine xorSum_congr fun i hi => ?_
  rw [rd_fill, if_pos hi, s.rd_forneyBody_omega, if_pos ⟨hi.trans_le (h.npar_le hd), hi⟩]

/-- Settles O42: the quotient of R252 times its denominator is its numerator, and R252's exponent takes `X^FCR` to X. -/
theorem forneyComputesMagnitudes : Obligations.ForneyComputesMagnitudes := by
  intro s h hd hroot hden
  refine ⟨_, exec_forney hd hroot hden, rfl, length_fillUsed .., length_fillUsed .., fun i hi => ?_, fun i hi => ?_,
    fun k hk hsize => ?_, fun k => State.rd_forneyBody_mag_above⟩
  · exact (s.rd_forneyBody_omega i).trans (if_pos ⟨hi.trans_le (h.npar_le hd), hi⟩)
  · exact (s.rd_forneyBody_omega i).trans (if_neg fun hlt => Nat.not_lt.mpr hi hlt.2)
  · have heq := (h.logs hd).magnitude_gfMul_derivEval s.fcr (omegaOf s.tab s.npar s.syn s.lam) (hden k hk)
    rw [h.polyEval_omegaOf hd] at heq
    rw [State.complete_mag, State.rd_forneyBody_mag hsize hk]
    exact heq

/-! ### CORRECT (R255) -/

/-- Each byte of BUF gets every magnitude at its position. -/
theorem read_correctAll (posn mag : List Byte) (base n : Nat) {m : Memory} (hm : Memory.wf m = true) (a : Nat) :
    Memory.read (correctAll posn mag base n m) a =
      Memory.read m a ^^^ xorSum n fun k => if a = base + (rd posn k).toNat then rd mag k else 0#8 := by
  induction n with
  | zero => exact BitVec.xor_zero.symm
  | succ n ih =>
    rw [correctAll_succ, correctTurn, xorSum_succ, ← BitVec.xor_assoc, ← ih]
    split
    case isTrue heq => rw [← heq, Memory.read_write_self _ _ (wf_correctAll posn mag base n hm)]
    case isFalse hne => rw [Memory.read_write_other _ hne, BitVec.xor_zero]

/-- The same magnitudes added a second time cancel. -/
theorem read_correctAll_twice (posn mag : List Byte) (base n : Nat) {m : Memory} (hm : Memory.wf m = true) (a : Nat) :
    Memory.read (correctAll posn mag base n (correctAll posn mag base n m)) a = Memory.read m a := by
  rw [read_correctAll _ _ _ _ (wf_correctAll posn mag base n hm), read_correctAll _ _ _ _ hm, BitVec.xor_assoc,
    BitVec.xor_self, BitVec.xor_zero]

theorem exec_correct {s : State} {blk : BitVec 16} (hd : s.initDone = true) (hmag : s.magV = true)
    (hblk : InRange blk s) : exec (.correct blk) s = .next ((s.correctBody (s.blockBase blk)).complete .ok) := by
  simp [exec, execCorrect, hd, hmag, checkBlock_eq_none.mpr hblk]

/-- Settles O43: the first application keeps POSN, MAG and NROOTS, so the second adds the same magnitudes again. -/
theorem correctAppliesMagnitudes : Obligations.CorrectAppliesMagnitudes := by
  intro s blk h hd hmag hblk
  refine ⟨_, _, exec_correct hd hmag hblk, exec_correct hd hmag hblk, rfl,
    read_correctAll s.posn s.mag (base blk s) s.nroots.toNat h.bufWf, fun a ha => ?_,
    read_correctAll_twice s.posn s.mag (base blk s) s.nroots.toNat h.bufWf⟩
  refine read_correctAll_other (base := base blk s) s.mag s.buf fun k _ => ?_
  have hposn : (rd s.posn k).toNat < s.cfgN.toNat := h.posnLt (h.magChain hmag) k
  omega

end Sys2Proof.Machine
end

section
/-! DECODE.BLK by the stage commands (45_block_decoder.md R280).

A block ends in exactly one way (`BlockRun.unique`), so an end whose checks pass is the end. A stage reads nothing that
the end of the stage before it wrote, so as a command it runs as it does inside the block. -/

open Sys2Proof.Claims

namespace Sys2Proof.Machine

/-! ### The one end of a block -/

/-- decode_block with its stages named (R280). -/
theorem State.decodeBlock_eq (base : Nat) (s : State) :
    s.decodeBlock base =
      if (s.syndBody base).synZero then { res := .ok, ncorr := 0, st := s.syndBody base }
      else if (s.located base).capacity < (s.located base).locL.toNat then
        { res := .uncorrDegree, ncorr := 0, st := s.located base }
      else if (s.searched base).nroots ≠ (s.searched base).locL then
        { res := .uncorrRoots, ncorr := 0, st := s.searched base }
      else (s.searched base).repairBlock base (s.blockBytes base) := rfl

/-- Steps 4 to 6 of decode_block after the three stages before them (R280). -/
theorem State.repairBlock_searched (base : Nat) (s : State) :
    (s.searched base).repairBlock base (s.blockBytes base) =
      if syndromesZero s.tab s.fcr s.npar (s.repaired base) then
        { res := .ok, ncorr := (s.searched base).nroots.toNat, st := s.restored base }
      else { res := .uncorrRecheck, ncorr := 0, st := s.evaluated base } := by
  rw [State.repairBlock_eq, State.chienBody_tab, State.bmBody_tab, State.syndBody_tab, State.chienBody_fcr,
    State.bmBody_fcr, State.syndBody_fcr, State.chienBody_npar, State.bmBody_npar, State.syndBody_npar]
  rfl

section

variable {base : Nat} {s : State} {e : BlockEnd}

/-- The checks of the five ends exclude each other. -/
theorem BlockRun.eq_decodeBlock (hrun : BlockRun base s e) : e = s.decodeBlock base := by
  rw [State.decodeBlock_eq, State.bmBody_capacity, State.syndBody_capacity, State.chienBody_locL,
    State.syndBody_synZero, State.repairBlock_searched]
  cases hrun with
  | codeword hz => rw [if_pos hz]
  | degree hz hlen => rw [hz, if_neg Bool.false_ne_true, if_pos hlen]
  | roots hz hlen hroots => rw [hz, if_neg Bool.false_ne_true, if_neg hlen.not_gt, if_pos hroots]
  | recheck hz hlen hroots hcheck =>
    rw [hz, if_neg Bool.false_ne_true, if_neg hlen.not_gt, if_neg (not_not.mpr hroots), hcheck,
      if_neg Bool.false_ne_true]
  | corrected hz hlen hroots hcheck =>
    rw [hz, if_neg Bool.false_ne_true, if_neg hlen.not_gt, if_neg (not_not.mpr hroots), if_pos hcheck]

theorem BlockRun.unique {e' : BlockEnd} (hrun : BlockRun base s e) (hrun' : BlockRun base s e') : e = e' :=
  hrun.eq_decodeBlock.trans hrun'.eq_decodeBlock.symm

/-! ### The arrays of a block's end, stage by stage (R280) -/

theorem BlockRun.syn (hrun : BlockRun base s e) :
    e.st.syn = (s.syndBody base).syn ∧ e.st.synZero = (s.syndBody base).synZero := by
  cases hrun <;> exact ⟨rfl, rfl⟩

theorem BlockRun.locator (hrun : BlockRun base s e) (hz : (s.syndBody base).synZero = false) :
    e.st.lam = (s.located base).lam ∧ e.st.locL = (s.located base).locL := by
  cases hrun with
  | codeword hz' => exact absurd (hz'.symm.trans hz) nofun
  | degree | roots | recheck | corrected => exact ⟨rfl, rfl⟩

theorem BlockRun.positions (hrun : BlockRun base s e) (hz : (s.syndBody base).synZero = false)
    (hlen : (s.located base).locL.toNat ≤ s.capacity) :
    e.st.root = (s.searched base).root ∧ e.st.posn = (s.searched base).posn ∧
      e.st.nroots = (s.searched base).nroots := by
  cases hrun with
  | codeword hz' => exact absurd (hz'.symm.trans hz) nofun
  | degree _ hlen' => exact absurd hlen hlen'.not_ge
  | roots | recheck | corrected => exact ⟨rfl, rfl, rfl⟩

theorem BlockRun.magnitudes (hrun : BlockRun base s e) (hz : (s.syndBody base).synZero = false)
    (hlen : (s.located base).locL.toNat ≤ s.capacity) (hroots : (s.searched base).nroots = (s.located base).locL) :
    e.st.omega = (s.evaluated base).omega ∧ e.st.mag = (s.evaluated base).mag ∧
      (e.res = .ok ∨ e.res = .uncorrRecheck) := by
  cases hrun with
  | codeword hz' => exact absurd (hz'.symm.trans hz) nofun
  | degree _ hlen' => exact absurd hlen hlen'.not_ge
  | roots _ _ hroots' => exact absurd hroots hroots'
  | recheck => exact ⟨rfl, rfl, .inr rfl⟩
  | corrected => exact ⟨rfl, rfl, .inl rfl⟩

theorem BlockRun.buf_of_ok (hrun : BlockRun base s e) (hz : (s.syndBody base).synZero = false) (hres : e.res = .ok) :
    e.st.buf = (s.restored base).buf := by
  cases hrun with
  | codeword hz' => exact absurd (hz'.symm.trans hz) nofun
  | degree | roots | recheck => exact absurd hres nofun
  | corrected => rfl

/-! ### The results of the stages (R213, R231) -/

theorem State.bmRes_eq_ok {u : State} : u.bmRes = .ok ↔ u.locL.toNat ≤ u.capacity := by
  unfold State.bmRes
  split <;> simp [*]

theorem State.bmRes_eq_uncorrDegree {u : State} : u.bmRes = .uncorrDegree ↔ u.capacity < u.locL.toNat := by
  rw [← Nat.not_le, ← State.bmRes_eq_ok]
  unfold State.bmRes
  split <;> simp

theorem State.chienRes_eq_ok {u : State} : u.chienRes = .ok ↔ u.nroots = u.locL := by
  unfold State.chienRes
  split <;> simp [*]

theorem State.chienRes_eq_uncorrRoots {u : State} : u.chienRes = .uncorrRoots ↔ u.nroots ≠ u.locL := by
  unfold State.chienRes
  split <;> simp [*]

/-! ### BUF after a corrected block -/

/-- A corrected block written back is what CORRECT makes of BUF (R255, R280 steps 4 and 6). -/
theorem State.Inv.read_restored (h : s.Inv) (hd : s.initDone = true) (base a : Nat) :
    Memory.read (s.restored base).buf a = Memory.read ((s.evaluated base).correctBody base).buf a := by
  have hposn : ∀ k, (rd (s.searched base).posn k).toNat < s.n := by
    have hposn := (h.searched hd base).posnLt (State.chienBody_rootV _)
    rwa [State.chienBody_n, State.bmBody_n, State.syndBody_n] at hposn
  rw [State.restored_buf, State.correctBody_buf, State.forneyBody_posn, State.forneyBody_nroots, State.forneyBody_buf,
    State.chienBody_buf, State.bmBody_buf, State.syndBody_buf]
  by_cases ha : base ≤ a ∧ a < base + s.n
  · obtain ⟨i, rfl⟩ := Nat.exists_eq_add_of_le ha.1
    have hi : i < s.n := by omega
    have hread : Memory.read (Memory.writeAll s.buf base (s.repaired base)) (base + i) = rd (s.repaired base) i :=
      Memory.read_writeAll_self _ base i h.bufWf (by rwa [State.length_repaired])
    rw [hread, State.repaired, rd_patched _ _ _ (by rwa [length_blockBytes]), State.rd_blockBytes base hi,
      read_correctAll _ _ _ _ h.bufWf]
    simp only [Nat.add_left_cancel_iff]
  · rw [Memory.read_writeAll_other _ _ base (by rw [State.length_repaired]; omega),
      read_correctAll_other _ _ fun k _ => by have := hposn k; omega]

/-! ### The stages as commands -/

/-- Of two ends, one after the other, the later one stands. -/
@[simp] theorem State.complete_complete (r r' : Res) (u : State) :
    (u.complete r).complete r' = u.complete r' := by
  simp only [State.complete, BitVec.or_assoc, BitVec.or_self]

@[simp] theorem State.bmBody_complete (r : Res) (u : State) : (u.complete r).bmBody = u.bmBody.complete r := rfl
@[simp] theorem State.chienBody_complete (r : Res) (u : State) :
    (u.complete r).chienBody = u.chienBody.complete r := rfl
@[simp] theorem State.forneyBody_complete (r : Res) (u : State) :
    (u.complete r).forneyBody = u.forneyBody.complete r := rfl
@[simp] theorem State.correctBody_complete (base : Nat) (r : Res) (u : State) :
    (u.complete r).correctBody base = (u.correctBody base).complete r := rfl
@[simp] theorem State.bmRes_complete (r : Res) (u : State) : (u.complete r).bmRes = u.bmRes := rfl
@[simp] theorem State.chienRes_complete (r : Res) (u : State) : (u.complete r).chienRes = u.chienRes := rfl
@[simp] theorem denominator_complete (r : Res) (u : State) (k : Nat) : denominator (u.complete r) k = denominator u k :=
  rfl

theorem exec_bm_after_synd (hd : s.initDone = true) (r : Res) :
    exec .bm ((s.syndBody base).complete r) = .next ((s.located base).complete (s.located base).bmRes) := by
  rw [exec_bm (by simpa using hd) (by simp), State.bmBody_complete, State.bmRes_complete, State.complete_complete]

theorem exec_chien_after_bm (hd : s.initDone = true) (r : Res) :
    exec .chien ((s.located base).complete r) = .next ((s.searched base).complete (s.searched base).chienRes) := by
  rw [exec_chien (by simpa using hd) (by simp), State.chienBody_complete, State.chienRes_complete,
    State.complete_complete]

/-- FORNEY follows a Chien search that found LOC_L roots, so it meets no zero denominator (R253). -/
theorem State.Inv.exec_forney_after_chien (h : s.Inv) (hd : s.initDone = true)
    (hroots : (s.searched base).nroots = (s.located base).locL) (r : Res) :
    exec .forney ((s.searched base).complete r) = .next ((s.evaluated base).complete .ok) := by
  have hfull : (s.located base).positions.length = (s.located base).locL.toNat :=
    (State.chienBody_nroots_toNat _).symm.trans (congrArg BitVec.toNat hroots)
  have hden : ∀ k, k < (s.searched base).nroots.toNat → denominator (s.searched base) k ≠ 0#8 := fun k =>
    (h.located hd base).denominator_chienBody_ne_zero (by simpa using hd) (State.bmBody_locV _) hfull
  rw [exec_forney (by simpa using hd) (by simp)
      (by simpa only [State.complete_nroots, denominator_complete] using hden),
    State.forneyBody_complete, State.complete_complete]

theorem inRange_of_setup_eq {u : State} (hset : u.setup = s.setup) (blk : BitVec 16) :
    InRange blk u ↔ InRange blk s := by
  obtain ⟨hbuild, -, hn, -⟩ := State.setup_eq_iff.mp hset
  rw [InRange, InRange, hbuild, hn]

theorem State.blockBase_of_setup_eq {u : State} (hset : u.setup = s.setup) (blk : BitVec 16) :
    u.blockBase blk = s.blockBase blk := congrArg (blk.toNat * ·) (State.n_of_setup_eq hset)

theorem exec_correct_after_forney {blk : BitVec 16} (hd : s.initDone = true) (hblk : InRange blk s) (r : Res) :
    exec (.correct blk) ((s.evaluated base).complete r) =
      .next (((s.evaluated base).correctBody (s.blockBase blk)).complete .ok) := by
  have hset : ((s.evaluated base).complete r).setup = s.setup := by simp
  rw [exec_correct (by simpa using hd) (by simp) ((inRange_of_setup_eq hset blk).mpr hblk),
    State.blockBase_of_setup_eq hset, State.correctBody_complete, State.complete_complete]

end

/-- Settles O45: each stage command runs on the state that the stage before it left, and the block has the one end that
the stages' results select. -/
theorem decodeBlkRunsTheStages : Obligations.DecodeBlkRunsTheStages := by
  intro s blk h hd hblk
  have hexec := exec_decodeBlk hd hblk
  have hrun := s.decodeBlock_run (s.blockBase blk)
  generalize s.decodeBlock (s.blockBase blk) = e at hexec hrun
  refine ⟨_, _, hexec, exec_synd hd hblk, hrun.syn.1, hrun.syn.2, fun hz => ?_, fun hz => ?_⟩
  · obtain rfl := hrun.unique (.codeword hz)
    simp [BlockEnd.record]
  obtain ⟨hlam, hlocL⟩ := hrun.locator hz
  refine ⟨_, exec_bm_after_synd hd .ok, hlam, hlocL, fun hres => ?_, fun hres => ?_⟩
  · have hlen := (State.bmRes_eq_uncorrDegree (u := s.located _)).mp hres
    rw [State.bmBody_capacity, State.syndBody_capacity] at hlen
    obtain rfl := hrun.unique (.degree hz hlen)
    simp [BlockEnd.record]
  have hlen := (State.bmRes_eq_ok (u := s.located _)).mp hres
  rw [State.bmBody_capacity, State.syndBody_capacity] at hlen
  obtain ⟨hroot, hposn, hnroots⟩ := hrun.positions hz hlen
  refine ⟨_, exec_chien_after_bm hd _, hroot, hposn, hnroots, fun hres => ?_, fun hres => ?_⟩
  · obtain rfl := hrun.unique (.roots hz hlen ((State.chienRes_eq_uncorrRoots (u := s.searched _)).mp hres))
    simp [BlockEnd.record]
  have hroots := (State.chienRes_eq_ok (u := s.searched _)).mp hres
  obtain ⟨homega, hmag, hends⟩ := hrun.magnitudes hz hlen hroots
  refine ⟨_, h.exec_forney_after_chien hd hroots _, fun _ => ⟨homega, hmag, hends, _,
    exec_correct_after_forney hd hblk .ok, fun hok a => ?_⟩⟩
  exact (congrArg (Memory.read · a) (hrun.buf_of_ok hz hok)).trans (h.read_restored hd _ a)

end Sys2Proof.Machine
end

section
/-! DECODE.BLK between two states (45_block_decoder.md R281): each stage's writes depend on the setup and on what the
stage reads, so the end of a block depends on the setup and the block's bytes alone (`SameBlock.exists_run`). -/

open Sys2Proof.Claims

namespace Sys2Proof.Machine

section

variable {base : Nat} {s : State} {e : BlockEnd}

/-! ### What each stage reads (R194, R213, R231, R254) -/

section

variable {u : State} (hset : u.setup = s.setup)
include hset

theorem State.syndromesZero_congr (w : List Byte) :
    syndromesZero u.tab u.fcr u.npar w = syndromesZero s.tab s.fcr s.npar w := by
  obtain ⟨-, -, -, hnpar, -, hfcr, htab, -⟩ := State.setup_eq_iff.mp hset
  simp only [State.fcr, State.npar, hnpar, hfcr, htab]

theorem State.syndBody_congr (hbytes : u.blockBytes base = s.blockBytes base) :
    (u.syndBody base).syn = (s.syndBody base).syn := by
  obtain ⟨hbuild, -, -, hnpar, -, hfcr, htab, -⟩ := State.setup_eq_iff.mp hset
  simp only [State.syndBody_syn, State.npar, State.fcr, hbuild, hnpar, hfcr, htab, hbytes]

theorem State.bmBody_congr (hsyn : u.syn = s.syn) : u.bmBody.lam = s.bmBody.lam ∧ u.bmBody.locL = s.bmBody.locL := by
  obtain ⟨hbuild, -, -, hnpar, -, -, htab, -⟩ := State.setup_eq_iff.mp hset
  simp only [State.bmBody_lam, State.bmBody_locL, State.npar, hbuild, hnpar, htab, hsyn, and_self]

theorem State.chienBody_congr (hlam : u.lam = s.lam) :
    u.chienBody.root = s.chienBody.root ∧ u.chienBody.posn = s.chienBody.posn ∧
      u.chienBody.nroots = s.chienBody.nroots := by
  obtain ⟨hbuild, -, hn, hnpar, -, -, htab, -⟩ := State.setup_eq_iff.mp hset
  simp only [State.chienBody, State.n, State.npar, hbuild, hn, hnpar, htab, hlam, and_self]

theorem State.forneyBody_congr (hsyn : u.syn = s.syn) (hlam : u.lam = s.lam) (hroot : u.root = s.root)
    (hnroots : u.nroots = s.nroots) : u.forneyBody.mag = s.forneyBody.mag := by
  obtain ⟨hbuild, -, -, hnpar, -, hfcr, htab, -⟩ := State.setup_eq_iff.mp hset
  simp only [State.forneyBody, State.rootAt, State.npar, State.fcr, hbuild, hnpar, hfcr, htab, hsyn, hlam, hroot,
    hnroots]

end

/-! ### Two states that share a block -/

@[simp] theorem State.blockBytes_syndBody (b b' : Nat) (u : State) :
    (u.syndBody b).blockBytes b' = u.blockBytes b' := rfl
@[simp] theorem State.blockBytes_bmBody (b : Nat) (u : State) : u.bmBody.blockBytes b = u.blockBytes b := rfl
@[simp] theorem State.blockBytes_chienBody (b : Nat) (u : State) : u.chienBody.blockBytes b = u.blockBytes b := rfl
@[simp] theorem State.blockBytes_forneyBody (b : Nat) (u : State) : u.forneyBody.blockBytes b = u.blockBytes b := rfl

theorem State.setup_buf (m : Memory) (u : State) : State.setup { u with buf := m } = u.setup := rfl

/-- A corrected block written back and read again. -/
theorem State.blockBytes_restored (hwf : Memory.wf s.buf = true) :
    (s.restored base).blockBytes base = s.repaired base := by
  have hset : (s.restored base).setup = s.setup := (State.setup_buf _ (s.evaluated base)).trans (by simp)
  rw [State.blockBytes, State.restored_buf, State.n_of_setup_eq hset, ← s.length_repaired base,
    Memory.bytes_writeAll hwf]

/-- Two states with one setup and the same bytes in the block at `base`. -/
structure SameBlock (base : Nat) (s u : State) : Prop where
  setup : u.setup = s.setup
  bytes : u.blockBytes base = s.blockBytes base

namespace SameBlock

variable {u : State} (h : SameBlock base s u)
include h

theorem locator :
    (u.located base).lam = (s.located base).lam ∧ (u.located base).locL = (s.located base).locL :=
  State.bmBody_congr (by simpa using h.setup) (State.syndBody_congr h.setup h.bytes)

theorem positions :
    (u.searched base).root = (s.searched base).root ∧ (u.searched base).posn = (s.searched base).posn ∧
      (u.searched base).nroots = (s.searched base).nroots :=
  State.chienBody_congr (by simpa using h.setup) h.locator.1

theorem repaired : u.repaired base = s.repaired base := by
  obtain ⟨hroot, hposn, hnroots⟩ := h.positions
  have hmag : (u.evaluated base).mag = (s.evaluated base).mag :=
    State.forneyBody_congr (by simpa using h.setup) (State.syndBody_congr h.setup h.bytes) h.locator.1 hroot hnroots
  rw [State.repaired, State.repaired, hposn, hmag, hnroots, h.bytes]

/-- The block in the other state ends in the same way, with the same count and bytes. -/
theorem exists_run (hwf : Memory.wf s.buf = true) (hwf' : Memory.wf u.buf = true) (hrun : BlockRun base s e) :
    ∃ e', BlockRun base u e' ∧ e.res = e'.res ∧ e.ncorr = e'.ncorr ∧
      e.st.blockBytes base = e'.st.blockBytes base := by
  have hcapacity : u.capacity = s.capacity := congrArg (fun c : Setup => c.cfgNpar.toNat / 2) h.setup
  have hsyn : syndromesZero u.tab u.fcr u.npar (u.blockBytes base) =
      syndromesZero s.tab s.fcr s.npar (s.blockBytes base) := by
    rw [h.bytes, State.syndromesZero_congr h.setup]
  have hrecheck : syndromesZero u.tab u.fcr u.npar (u.repaired base) =
      syndromesZero s.tab s.fcr s.npar (s.repaired base) := by
    rw [h.repaired, State.syndromesZero_congr h.setup]
  obtain ⟨-, hlocL⟩ := h.locator
  obtain ⟨-, -, hnroots⟩ := h.positions
  cases hrun with
  | codeword hz => exact ⟨_, .codeword (hsyn.trans hz), rfl, rfl, by simp [h.bytes]⟩
  | degree hz hlen =>
    rw [← hcapacity, ← hlocL] at hlen
    exact ⟨_, .degree (hsyn.trans hz) hlen, rfl, rfl, by simp [h.bytes]⟩
  | roots hz hlen hroots =>
    rw [← hcapacity, ← hlocL] at hlen
    rw [← hnroots, ← hlocL] at hroots
    exact ⟨_, .roots (hsyn.trans hz) hlen hroots, rfl, rfl, by simp [h.bytes]⟩
  | recheck hz hlen hroots hcheck =>
    rw [← hcapacity, ← hlocL] at hlen
    rw [← hnroots, ← hlocL] at hroots
    exact ⟨_, .recheck (hsyn.trans hz) hlen hroots (hrecheck.trans hcheck), rfl, rfl, by simp [h.bytes]⟩
  | corrected hz hlen hroots hcheck =>
    rw [← hcapacity, ← hlocL] at hlen
    rw [← hnroots, ← hlocL] at hroots
    refine ⟨_, .corrected (hsyn.trans hz) hlen hroots (hrecheck.trans hcheck), rfl, by rw [hnroots], ?_⟩
    rw [State.blockBytes_restored hwf, State.blockBytes_restored hwf', h.repaired]

end SameBlock

/-! ### The setup, the entry and the bytes of a block -/

/-- INIT's tables and generator are those of the configuration (R161). -/
theorem State.Inv.setup_eq {u : State} (h : s.Inv) (h' : u.Inv) (hd : s.initDone = true) (hd' : u.initDone = true)
    (hbuild : s.build = u.build) (hn : s.cfgN = u.cfgN) (hnpar : s.cfgNpar = u.cfgNpar) (hprim : s.cfgPrim = u.cfgPrim)
    (hfcr : s.cfgFcr = u.cfgFcr) : u.setup = s.setup := by
  have htab : u.tab = s.tab := by
    have heq := (h'.ready hd').tab
    rw [← hprim, (h.ready hd).tab] at heq
    exact (Option.some.inj heq).symm
  have hgen : u.gen = s.gen := by
    rw [(h'.ready hd').gen, (h.ready hd).gen, htab, State.npar, State.npar, State.fcr, State.fcr, hbuild, hnpar, hfcr]
  exact State.setup_eq_iff.mpr
    ⟨hbuild.symm, hd'.trans hd.symm, hn.symm, hnpar.symm, hprim.symm, hfcr.symm, htab, hgen⟩

/-- The entry that DECODE.BLK writes (R281). -/
theorem BlockRun.record_entry (hrun : BlockRun base s e) {blk : BitVec 16} (hlen : blk.toNat < s.bstat.length) :
    (e.record blk).bstat.getD blk.toNat 0#32 = bstatWord e.res e.ncorr :=
  getD_set_self _ (hrun.bstat ▸ hlen)

theorem BlockRun.rd_blockBytes (hrun : BlockRun base s e) {k : Nat} (hk : k < s.n) :
    rd (e.st.blockBytes base) k = Memory.read e.st.buf (base + k) := by
  have hn : e.st.unstaged.n = s.unstaged.n := congrArg State.n hrun.unstaged
  exact State.rd_blockBytes base (hk.trans_eq hn.symm)

end

/-- Settles O46: both blocks run alike, and the entry and NCORR are made of what the run gives. -/
theorem decodeBlkIgnoresEverythingElse : Obligations.DecodeBlkIgnoresEverythingElse := by
  intro s u blk h h' hd hd' hbuild hn hnpar hprim hfcr hblk hbytes
  have hset := h.setup_eq h' hd hd' hbuild hn hnpar hprim hfcr
  have hblk' := (inRange_of_setup_eq hset blk).mpr hblk
  have hbase := State.blockBase_of_setup_eq hset blk
  have hsame : SameBlock (s.blockBase blk) s u := by
    refine ⟨hset, ?_⟩
    rw [State.blockBytes, State.n_of_setup_eq hset]
    exact Memory.bytes_congr fun k hk => (hbytes k hk).symm
  have hrun := s.decodeBlock_run (s.blockBase blk)
  have hexec := exec_decodeBlk hd hblk
  have hexec' := exec_decodeBlk hd' hblk'
  rw [hbase] at hexec'
  generalize s.decodeBlock (s.blockBase blk) = e at hexec hrun
  obtain ⟨e', hrun', hres, hncorr, hblock⟩ := hsame.exists_run h.bufWf h'.bufWf hrun
  rw [← hrun'.eq_decodeBlock] at hexec'
  refine ⟨_, _, hexec, hexec', hres, congrArg (BitVec.ofNat 8) hncorr, ?_, fun k hk => ?_⟩
  · rw [State.complete_bstat, State.complete_bstat, hrun.record_entry (h.sized.bstat ▸ hblk.1),
      hrun'.record_entry (h'.sized.bstat ▸ hblk'.1), hres, hncorr]
  · have hk' : k < u.n := hk.trans_eq (State.n_of_setup_eq hset).symm
    rw [State.complete_buf, State.complete_buf, BlockEnd.record_buf, BlockEnd.record_buf]
    exact (hrun.rd_blockBytes hk).symm.trans ((congrArg (rd · k) hblock).trans (hrun'.rd_blockBytes hk'))

end Sys2Proof.Machine
end

section
/-! DECODE.BUF by DECODE.BLK (45_block_decoder.md R282, R284): the two differ between blocks in what a command's end,
NCORR and BSTAT hold, and no block reads any of it (`BlockRun.unreported`). -/

open Sys2Proof.Claims

namespace Sys2Proof.Machine

section

variable {base : Nat} {s : State} {e : BlockEnd}


/-- The state without what a command's end, NCORR and BSTAT hold. -/
def State.unreported (s : State) : State :=
  { s with res := .ok, intStat := 0, running := none, ncorr := 0, bstat := [] }

theorem State.unreported_complete (r : Res) (u : State) : (u.complete r).unreported = u.unreported := rfl
theorem State.unreported_setBstat (b : Nat) (v : Word) (u : State) : (u.setBstat b v).unreported = u.unreported := rfl
theorem BlockEnd.unreported_record (e : BlockEnd) (blk : BitVec 16) :
    (e.record blk).unreported = e.st.unreported := rfl

/-- A block runs alike without the reports of earlier commands. -/
theorem BlockRun.unreported (hrun : BlockRun base s e) :
    BlockRun base s.unreported { e with st := e.st.unreported } := by
  cases hrun with
  | codeword hz => exact .codeword hz
  | degree hz hlen => exact .degree hz hlen
  | roots hz hlen hroots => exact .roots hz hlen hroots
  | recheck hz hlen hroots hcheck => exact .recheck hz hlen hroots hcheck
  | corrected hz hlen hroots hcheck => exact .corrected hz hlen hroots hcheck

/-- `u`, after the first `nb` blocks one by one, agrees with DECODE.BUF's state after them. -/
structure AgreesAfter (nb : Nat) (s u : State) : Prop where
  work : u.unreported = (s.decodeBlocks nb).st.unreported
  length : u.bstat.length = s.build.blkMax
  entries : ∀ b, b < nb → u.bstat.getD b 0#32 = bstatWord (s.blockEnd b).res (s.blockEnd b).ncorr
  ncorr : nb ≠ 0 → u.ncorr = BitVec.ofNat 8 (s.decodeBlocks nb).nc

theorem AgreesAfter.zero (h : s.Inv) : AgreesAfter 0 s s where
  work := rfl
  length := h.sized.bstat
  entries := nofun
  ncorr := nofun

theorem AgreesAfter.setup {nb : Nat} {u : State} (hu : AgreesAfter nb s u) : u.setup = s.setup :=
  (congrArg State.setup hu.work).trans (s.decodeBlocks_setup nb)

/-- Block `nb` ends from `u` as it does within DECODE.BUF. -/
theorem AgreesAfter.blockEnd {nb : Nat} {u : State} (hu : AgreesAfter nb s u) (hrun : BlockRun (nb * s.n) u e) :
    e.res = (s.blockEnd nb).res ∧ e.ncorr = (s.blockEnd nb).ncorr ∧
      e.st.unreported = (s.blockEnd nb).st.unreported := by
  have hrun := hrun.unreported
  rw [hu.work] at hrun
  exact BlockEnd.mk.inj (hrun.unique (s.blockEnd_run nb).unreported)

/-- DECODE.BLK on the next block takes the agreement one block further. -/
theorem AgreesAfter.step {u : State} {blk : BitVec 16} (hu : AgreesAfter blk.toNat s u) (hd : s.initDone = true)
    (hblk : InRange blk s) : ∃ v, exec (.decodeBlk blk) u = .next v ∧ AgreesAfter (blk.toNat + 1) s v := by
  have hexec := exec_decodeBlk ((congrArg Setup.initDone hu.setup).trans hd)
    ((inRange_of_setup_eq hu.setup blk).mpr hblk)
  have hrun := u.decodeBlock_run (u.blockBase blk)
  generalize u.decodeBlock (u.blockBase blk) = e at hexec hrun
  rw [State.blockBase_of_setup_eq hu.setup] at hrun
  obtain ⟨hres, hncorr, hwork⟩ := hu.blockEnd hrun
  have hlen : blk.toNat < u.bstat.length := hu.length ▸ hblk.1
  refine ⟨_, hexec, ?_, ?_, fun b hb => ?_, fun _ => ?_⟩
  · rw [State.decodeBlocks_succ_eq, State.unreported_complete, BlockEnd.unreported_record, State.unreported_setBstat,
      hwork]
  · exact List.length_set.trans (hrun.bstat ▸ hu.length)
  · obtain hlt | rfl := Nat.lt_succ_iff_lt_or_eq.mp hb
    · exact (getD_set_other _ (Nat.ne_of_gt hlt)).trans (hrun.bstat ▸ hu.entries b hlt)
    · rw [State.complete_bstat, hrun.record_entry hlen, hres, hncorr]
  · rw [State.decodeBlocks_succ_eq]
    exact congrArg (BitVec.ofNat 8) hncorr

/-- Block by block the states agree, as long as the blocks lie in BUF and BSTAT. -/
theorem State.Inv.exists_blockByBlock (h : s.Inv) (hd : s.initDone = true) {nb : Nat} (hnb : nb ≤ s.build.blkMax)
    (hbytes : nb * s.n ≤ s.build.bufBytes) : ∃ u, blockByBlock nb s = .next u ∧ AgreesAfter nb s u := by
  induction nb with
  | zero => exact ⟨s, rfl, .zero h⟩
  | succ nb ih =>
    obtain ⟨u, hblocks, hu⟩ := ih (Nat.le_of_succ_le hnb) ((Nat.mul_le_mul_right _ (Nat.le_succ nb)).trans hbytes)
    have hmax := h.blkMax_le
    have hval : (BitVec.ofNat 16 nb).toNat = nb := BitVec.toNat_ofNat .. |>.trans (Nat.mod_eq_of_lt (by omega))
    have hblk : InRange (BitVec.ofNat 16 nb) s := by
      rw [InRange, hval]
      exact ⟨hnb, hbytes⟩
    obtain ⟨v, hexec, hv⟩ := AgreesAfter.step (hval.symm ▸ hu) hd hblk
    refine ⟨v, ?_, hval ▸ hv⟩
    rw [blockByBlock, hblocks]
    exact hexec

end

/-- Settles O49, by induction on the number of blocks: what the two sides leave differs in no state that a block
reads. -/
theorem decodeBufIsBlockByBlock : Obligations.DecodeBufIsBlockByBlock := by
  intro s h hd hlen nb
  have hbytes : nb * s.n ≤ s.build.bufBytes := (Nat.div_mul_le_self ..).trans hlen.1
  obtain ⟨u, hblocks, hu⟩ := h.exists_blockByBlock hd hlen.2.2 hbytes
  have hfield : ∀ {α : Type} (f : State → α), f (s.decodeBlocks nb).st.unreported = f u.unreported := fun f =>
    congrArg f hu.work.symm
  refine ⟨_, u, exec_decodeBuf hd hlen, hblocks, hfield State.buf, fun b hb => ?_, hfield State.syn,
    hfield State.synZero, hfield State.lam, hfield State.locL, hfield State.root, hfield State.posn,
    hfield State.nroots, hfield State.omega, hfield State.mag, hfield validBits, fun hnb => (hu.ncorr hnb).symm⟩
  exact (State.decodeBlocks_bstat hlen.2.2 b).trans ((if_pos hb).trans (hu.entries b hb).symm)

end Sys2Proof.Machine
end

section
/-! How a command is rejected (60_exceptions.md R312 to R321): its first failing check in R320's order decides
(`FailsFirst`), the rejection writes R321's list, and a command that passes its checks is not rejected. -/

open Sys2Proof.Claims

namespace Sys2Proof.Machine

/-! ### A check that fails -/

theorem checkBlock_of_not_inRange {blk : BitVec 16} {s : State} (h : ¬ InRange blk s) :
    checkBlock blk s = some .range :=
  if_pos ((not_and_or.mp h).imp Nat.le_of_not_lt Nat.lt_of_not_ge)

theorem checkBufLen_of_not_bufLenOk {s : State} (h : ¬ BufLenOk s) : checkBufLen s = some .range := if_neg h

theorem State.zeroDenominator_eq_true {s : State} :
    s.zeroDenominator = true ↔ ∃ k, k < s.nroots.toNat ∧ denominator s k = 0#8 := by
  simp [State.zeroDenominator, denominator_eq]

/-- Where NOT_INIT fails, no later check decides. -/
theorem firstFailed_checkInit {s : State} (hd : s.initDone = false) (cs : List (Option Cause)) :
    firstFailed (checkInit s :: cs) = some .notInit := by
  rw [checkInit_not hd, firstFailed_cons_some]

theorem not_notInitFails_of_initDone {s : State} (hd : s.initDone = true) (i : Instr) : ¬ NotInitFails i s :=
  fun h => absurd (hd.symm.trans h.1) nofun

theorem initDone_of_not_notInitFails {i : Instr} {s : State} (h : ¬ NotInitFails i s) (hnop : i ≠ .nop)
    (hinit : i ≠ .init) : s.initDone = true :=
  Bool.eq_true_of_not_eq_false fun hd => h ⟨hd, hnop, hinit⟩

/-! ### The first check that fails (R320) -/

/-- `c` is the cause of the command's first failing check. No command has both a RANGE and a DOMAIN check, and INIT has
the CFG check alone. -/
inductive FailsFirst (i : Instr) (s : State) : Cause → Prop
  | notInit (h : NotInitFails i s) : FailsFirst i s .notInit
  | seq (hinit : ¬ NotInitFails i s) (h : SeqFails i s) : FailsFirst i s .seq
  | range (hinit : ¬ NotInitFails i s) (hseq : ¬ SeqFails i s) (h : RangeFails i s) : FailsFirst i s .range
  | cfg (h : CfgFails i s) : FailsFirst i s .cfg
  | domain (hinit : ¬ NotInitFails i s) (hseq : ¬ SeqFails i s) (h : DomainFails i s) : FailsFirst i s .domain

section

variable {i : Instr} {s : State}

theorem exec_of_notInitFails (h : NotInitFails i s) : exec i s = .next (s.reject .notInit) := by
  obtain ⟨hd, hnop, hinit⟩ := h
  have hend : ∀ {failed : Option Cause} (ok : State), failed = some .notInit →
      commandEnd failed s ok = .next (s.reject .notInit) := fun ok hf => hf ▸ commandEnd_some _ s ok
  cases i with
  | nop => exact absurd rfl hnop
  | init => exact absurd rfl hinit
  | gfAdd | gfMul | gfPow => exact hend _ (checkInit_not hd)
  | _ => exact hend _ (firstFailed_checkInit hd _)

theorem exec_of_seqFails (hinit : ¬ NotInitFails i s) (h : SeqFails i s) : exec i s = .next (s.reject .seq) := by
  have hd := initDone_of_not_notInitFails hinit
  cases i with
  | bm => simp [exec, execBm, hd, show s.synV = false from h]
  | chien => simp [exec, execChien, hd, show s.locV = false from h]
  | forney => simp [exec, execForney, hd, show s.rootV = false from h]
  | correct blk => simp [exec, execCorrect, hd, show s.magV = false from h]
  | _ => exact h.elim

theorem exec_of_rangeFails (hinit : ¬ NotInitFails i s) (hseq : ¬ SeqFails i s) (h : RangeFails i s) :
    exec i s = .next (s.reject .range) := by
  have hd := initDone_of_not_notInitFails hinit
  cases i with
  | synd blk => simp [exec, execSynd, hd, checkBlock_of_not_inRange h]
  | correct blk =>
    have hmag : s.magV = true := Bool.eq_true_of_not_eq_false hseq
    simp [exec, execCorrect, hd, hmag, checkBlock_of_not_inRange h]
  | decodeBlk blk => simp [exec, execDecodeBlk, hd, checkBlock_of_not_inRange h]
  | decodeBuf => simp [exec, execDecodeBuf, hd, checkBufLen_of_not_bufLenOk h]
  | _ => exact h.elim

theorem exec_of_domainFails (hinit : ¬ NotInitFails i s) (hseq : ¬ SeqFails i s) (h : DomainFails i s) :
    exec i s = .next (s.reject .domain) := by
  have hd := initDone_of_not_notInitFails hinit
  cases i with
  | gfDiv a b => simp [exec, execGfDiv, hd, show b = 0#8 from h]
  | gfInv a => simp [exec, execGfInv, hd, show a = 0#8 from h]
  | forney =>
    have hroot : s.rootV = true := Bool.eq_true_of_not_eq_false hseq
    simp [exec, execForney, hd, hroot, State.zeroDenominator_eq_true.mpr h]
  | _ => exact h.elim

/-- INIT's check fails before build_tables or in it; in it EXP and LOG are lost (R157, log 10). -/
theorem exec_of_cfgFails (h : CfgFails i s) :
    exec i s = .next (s.reject .cfg) ∨ (i = .init ∧ exec i s = .next s.failedBuild) := by
  cases i with
  | init =>
    obtain ⟨hd, hbad⟩ := h
    by_cases hcfg : SizesOk s
    · have ht := buildTables_eq_none_iff.mpr fun hprim => hbad ⟨hcfg, hprim⟩
      exact .inr ⟨rfl, execInit_of_not_built hd hcfg ht⟩
    · exact .inl (execInit_of_not_sizesOk hd hcfg)
  | _ => exact h.elim

/-- The first failing check rejects the command with its cause. -/
theorem FailsFirst.exec_eq {c : Cause} (hf : FailsFirst i s c) :
    exec i s = .next (s.reject c) ∨ (i = .init ∧ c = .cfg ∧ exec i s = .next s.failedBuild) := by
  cases hf with
  | notInit h => exact .inl (exec_of_notInitFails h)
  | seq hinit h => exact .inl (exec_of_seqFails hinit h)
  | range hinit hseq h => exact .inl (exec_of_rangeFails hinit hseq h)
  | cfg h => exact (exec_of_cfgFails h).imp_right fun ⟨hi, hexec⟩ => ⟨hi, rfl, hexec⟩
  | domain hinit hseq h => exact .inl (exec_of_domainFails hinit hseq h)

/-- A rejection for another cause than CFG has R321's effects alone. -/
theorem FailsFirst.exec_eq_rejectedWith {c : Cause} (hf : FailsFirst i s c) (hc : c ≠ .cfg) :
    exec i s = .next (rejectedWith c.mask s) := by
  obtain hexec | ⟨-, hcfg, -⟩ := hf.exec_eq
  · exact hexec.trans (congrArg _ (reject_eq_rejectedWith c s))
  · exact absurd hcfg hc

/-- A rejection sets the ERR bit of its cause, and no other. -/
theorem FailsFirst.err_res {c : Cause} (hf : FailsFirst i s c) {t : State} (h : exec i s = .next t) :
    t.err = s.err ||| c.mask ∧ t.res = .rejected := by
  obtain hexec | ⟨-, rfl, hexec⟩ := hf.exec_eq
  all_goals
    obtain rfl := Host.Outcome.next.inj (hexec.symm.trans h)
    exact ⟨rfl, rfl⟩

theorem FailsFirst.mask_mem {c : Cause} (hf : FailsFirst i s c) :
    c.mask ∈ [0x002#9, 0x004#9, 0x008#9, 0x020#9, 0x040#9] := by
  cases hf <;> decide

/-! ### No check fails -/

/-- A command that passes its checks ends as its rule says, with a result code that is not REJECTED. -/
theorem res_ne_rejected_of_checks {t : State} (hinit : ¬ NotInitFails i s) (hseq : ¬ SeqFails i s)
    (hrange : ¬ RangeFails i s) (hcfg : ¬ CfgFails i s) (hdomain : ¬ DomainFails i s) (h : exec i s = .next t) :
    t.res ≠ .rejected := by
  have hd := initDone_of_not_notInitFails hinit
  have hend : ∀ {u : State}, exec i s = .next u → u.res ≠ .rejected → t.res ≠ .rejected := fun hexec hu =>
    Host.Outcome.next.inj (hexec.symm.trans h) ▸ hu
  cases i with
  | nop => exact hend (nopCompletes s) nofun
  | init =>
    by_cases hdone : s.initDone = true
    · exact hend (if_pos hdone) nofun
    · have hdone := Bool.eq_false_of_not_eq_true hdone
      obtain ⟨hsizes, hprim⟩ := not_not.mp fun hbad => hcfg ⟨hdone, hbad⟩
      obtain ⟨tab, htab⟩ := (exists_buildTables_iff _).mpr hprim
      exact hend (execInit_of_built hdone hsizes htab) nofun
  | gfAdd a b => exact hend (exec_gfAdd (hd nofun nofun) a b) nofun
  | gfMul a b => exact hend (exec_gfMul (hd nofun nofun) a b) nofun
  | gfDiv a b => exact hend (exec_gfDiv (hd nofun nofun) a hdomain) nofun
  | gfInv a => exact hend (exec_gfInv (hd nofun nofun) hdomain) nofun
  | gfPow a e => exact hend (exec_gfPow (hd nofun nofun) a e) nofun
  | synd blk => exact hend (exec_synd (hd nofun nofun) (not_not.mp hrange)) nofun
  | bm =>
    exact hend (exec_bm (hd nofun nofun) (Bool.eq_true_of_not_eq_false hseq))
      (ne_of_mem_of_not_mem (State.bmRes_mem _) (by decide))
  | chien =>
    exact hend (exec_chien (hd nofun nofun) (Bool.eq_true_of_not_eq_false hseq))
      (ne_of_mem_of_not_mem (State.chienRes_mem _) (by decide))
  | forney =>
    have hden : ∀ k, k < s.nroots.toNat → denominator s k ≠ 0#8 := fun k hk hzero => hdomain ⟨k, hk, hzero⟩
    exact hend (exec_forney (hd nofun nofun) (Bool.eq_true_of_not_eq_false hseq) hden) nofun
  | correct blk =>
    exact hend (exec_correct (hd nofun nofun) (Bool.eq_true_of_not_eq_false hseq) (not_not.mp hrange)) nofun
  | decodeBlk blk =>
    exact hend (exec_decodeBlk (hd nofun nofun) (not_not.mp hrange))
      (ne_of_mem_of_not_mem (State.decodeBlock_run _ s).res_mem (by decide))
  | decodeBuf =>
    exact hend (exec_decodeBuf (hd nofun nofun) (not_not.mp hrange))
      (ne_of_mem_of_not_mem (BufAcc.res_mem _) (by decide))

/-- A rejected command has a failing check, and so a first one. -/
theorem exists_failsFirst_of_rejected {t : State} (h : exec i s = .next t) (hres : t.res = .rejected) :
    ∃ c, FailsFirst i s c := by
  by_contra hnone
  have hf : ∀ {c : Cause}, ¬ FailsFirst i s c := fun hf => hnone ⟨_, hf⟩
  have hinit : ¬ NotInitFails i s := fun hfails => hf (.notInit hfails)
  have hseq : ¬ SeqFails i s := fun hfails => hf (.seq hinit hfails)
  exact res_ne_rejected_of_checks hinit hseq (fun hfails => hf (.range hinit hseq hfails))
    (fun hfails => hf (.cfg hfails)) (fun hfails => hf (.domain hinit hseq hfails)) h hres

end

/-! ### The statements of R312 to R321 -/

/-- Settles O12: the first failing check of the command gives the bit; the exception is a failed build. -/
theorem rejectionIsPrecise : Obligations.RejectionIsPrecise := by
  intro i s t h hres
  obtain ⟨c, hf⟩ := exists_failsFirst_of_rejected h hres
  refine ⟨c.mask, hf.mask_mem, ?_⟩
  obtain hexec | ⟨rfl, rfl, hexec⟩ := hf.exec_eq
  all_goals obtain rfl := Host.Outcome.next.inj (hexec.symm.trans h)
  · exact .inl (reject_eq_rejectedWith c s)
  · exact .inr ⟨rfl, rfl, failedBuild_eq_rejectedWith s⟩

/-- Settles O19: each clause but the last names a first failing check; in the last no check fails. -/
theorem firstFailedCheckWins : Obligations.FirstFailedCheckWins := by
  intro i s t h
  refine ⟨fun hf => FailsFirst.err_res (.notInit hf) h, fun hinit hf => FailsFirst.err_res (.seq hinit hf) h,
    fun hinit hseq hf => FailsFirst.err_res (.range hinit hseq hf) h, fun hf => FailsFirst.err_res (.cfg hf) h,
    fun hinit hseq hf => FailsFirst.err_res (.domain hinit hseq hf) h,
    fun hinit hseq hrange hcfg hdomain => ?_⟩
  have hres := res_ne_rejected_of_checks hinit hseq hrange hcfg hdomain h
  exact ⟨((exec_ends h).flags_of_not_rejected hres).1, hres⟩

/-- Settles O15: NOT_INIT is the first check of each of the twelve commands. -/
theorem notInitRejects : Obligations.NotInitRejects := fun _ _ hnop hinit hd =>
  FailsFirst.exec_eq_rejectedWith (.notInit ⟨hd, hnop, hinit⟩) nofun

/-- Settles O16: with INIT_DONE = 1 the check of SEQ is the first to fail. -/
theorem outOfSequenceRejects : Obligations.OutOfSequenceRejects := by
  intro s hd
  have hseq : ∀ i, SeqFails i s → exec i s = .next (rejectedWith 0x020#9 s) := fun i hf =>
    FailsFirst.exec_eq_rejectedWith (.seq (not_notInitFails_of_initDone hd i) hf) nofun
  exact ⟨hseq .bm, hseq .chien, hseq .forney, fun hmag blk => hseq (.correct blk) hmag⟩

/-- Settles O17: with INIT_DONE = 1, and MAG_V = 1 for CORRECT, the check of RANGE is the first to fail. -/
theorem outOfRangeRejects : Obligations.OutOfRangeRejects := by
  intro s hd
  have hrange : ∀ i, ¬ SeqFails i s → RangeFails i s → exec i s = .next (rejectedWith 0x040#9 s) := fun i hseq hf =>
    FailsFirst.exec_eq_rejectedWith (.range (not_notInitFails_of_initDone hd i) hseq hf) nofun
  exact ⟨fun blk hblk => ⟨hrange (.synd blk) id hblk, hrange (.decodeBlk blk) id hblk,
    fun hmag => hrange (.correct blk) (ne_false_of_eq_true hmag) hblk⟩, hrange .decodeBuf id⟩

/-- Settles O18: with INIT_DONE = 1, and ROOT_V = 1 for FORNEY, the check of DOMAIN is the first to fail. -/
theorem domainRejects : Obligations.DomainRejects := by
  intro s hd
  have hdomain : ∀ i, ¬ SeqFails i s → DomainFails i s → exec i s = .next (rejectedWith 0x008#9 s) := fun i hseq hf =>
    FailsFirst.exec_eq_rejectedWith (.domain (not_notInitFails_of_initDone hd i) hseq hf) nofun
  exact ⟨fun a => hdomain (.gfDiv a 0#8) id rfl, hdomain (.gfInv 0#8) id rfl,
    fun hroot => hdomain .forney (ne_false_of_eq_true hroot)⟩

end Sys2Proof.Machine
end

section
/-! The command engine and its three states over time (20_memory.md R101, R103, 70_reset_and_hazards.md R350 to
R352, R380): how long BUSY lasts with an idle host, and which of Uninitialized, Ready and Busy a cycle leads to. -/

open Sys2Proof.Claims

namespace Sys2Proof.Machine

/-! ### BUSY with an idle host (R380) -/

/-- Before the completion point a cycle with an idle host takes one cycle off, and nothing else. -/
theorem step_countdown {s : State} {k : Nat} (hbusy : s.running = some (k + 1)) (h : s.pending = []) :
    step s = .next { s with running := some k } := by
  rw [step_of_pending_nil h, hbusy, engineCycle]

/-- Settles O8, by induction on the cycles to go: each cycle takes one off, and at the completion point the command ends,
whatever its word. -/
theorem busyLastsItsLatency : Obligations.BusyLastsItsLatency := by
  intro k
  induction k with
  | zero =>
    intro s hbusy h
    obtain ⟨t, hrun, hidle, -⟩ := runCommand_ends s
    have hstep : step s = .next t := by rw [step_of_pending_nil h, hbusy, engineCycle, hrun]
    have hstay : s = { s with running := some 0 } := by rw [← hbusy]
    exact ⟨congrArg Host.Outcome.next hstay, t, run_succ (M := Sys2Proof.core) hstep 0, hidle⟩
  | succ k ih =>
    intro s hbusy h
    have hrun : ∀ n, Host.Core.run Sys2Proof.core (n + 1) s = Host.Core.run Sys2Proof.core n { s with running := some k } :=
      run_succ (M := Sys2Proof.core) (step_countdown hbusy h)
    rw [hrun, hrun]
    exact ih { s with running := some k } rfl h

/-! ### The host's event of a cycle -/

/-- A cycle's host event acts on the state with the coming events moved on. -/
theorem exists_afterHost_eq (s : State) : ∃ e rest, s.afterHost = { s with pending := rest }.hostEvent e := by
  unfold State.afterHost
  split
  · rename_i h
    exact ⟨.idle, [], by rw [← h]; rfl⟩
  · exact ⟨_, _, rfl⟩
  · exact ⟨_, _, rfl⟩

/-- A register write may change a CFG_* register, never INIT_DONE (R45). -/
theorem writeIdle_initDone (loc : Loc) (v : Word) (s : State) : (s.writeIdle loc v).initDone = s.initDone := by
  have hcfg : ∀ {stored : State}, stored.initDone = s.initDone → (s.writeCfg stored).initDone = s.initDone := fun h => by
    unfold State.writeCfg
    split
    · rfl
    · exact h
  cases loc with
  | cfgN | cfgNpar | cfgPrim | cfgFcr => exact hcfg rfl
  | _ => rfl

theorem hostWrite_initDone (addr : Addr) (size : Size) (v : Word) (s : State) :
    (s.hostWrite addr size v).initDone = s.initDone := by
  simp only [State.hostWrite]
  split
  · split
    · exact congrArg Setup.initDone (writeBusy_setup _ v s)
    · exact writeIdle_initDone _ v s
  · rfl

/-- Only INIT and reset change INIT_DONE: the host's event keeps it. -/
theorem hostEvent_initDone (e : HostEvent) (s : State) : (s.hostEvent e).initDone = s.initDone := by
  cases e with
  | idle | rst => rfl
  | read addr size => exact congrArg Setup.initDone (State.hostRead_setup addr size s)
  | write addr size v => exact hostWrite_initDone addr size v s
  | poll => exact congrArg Setup.initDone (State.hostRead_setup statusAddr .word s)

theorem afterHost_initDone (s : State) : s.afterHost.initDone = s.initDone := by
  obtain ⟨e, rest, h⟩ := exists_afterHost_eq s
  rw [h, hostEvent_initDone]

section

variable {s : State} (hbusy : s.busy = true)
include hbusy

/-- While a command runs, the host's event leaves its word alone (R101). -/
theorem hostEvent_cmd_of_busy (e : HostEvent) : (s.hostEvent e).cmd = s.cmd := by
  cases e with
  | idle | rst => rfl
  | read addr size => exact hostRead_cmd addr size s
  | write addr size v => exact hostWrite_cmd_of_busy hbusy addr size v
  | poll => exact hostRead_cmd statusAddr .word s

/-- While a command runs, the host's event leaves the configuration alone (R101). -/
theorem hostEvent_setup_of_busy (e : HostEvent) : (s.hostEvent e).setup = s.setup := by
  cases e with
  | idle | rst => rfl
  | read addr size => exact State.hostRead_setup addr size s
  | write addr size v =>
    simp only [State.hostEvent, State.hostWrite, hbusy, if_true]
    split
    · exact writeBusy_setup _ v s
    · rfl
  | poll => exact State.hostRead_setup statusAddr .word s

theorem afterHost_cmd_of_busy : s.afterHost.cmd = s.cmd := by
  obtain ⟨e, rest, h⟩ := exists_afterHost_eq s
  rw [h, hostEvent_cmd_of_busy (s := { s with pending := rest }) hbusy]

theorem afterHost_setup_of_busy : s.afterHost.setup = s.setup := by
  obtain ⟨e, rest, h⟩ := exists_afterHost_eq s
  rw [h, hostEvent_setup_of_busy (s := { s with pending := rest }) hbusy]
  rfl

end

/-! ### INIT_DONE at the completion point (R161) -/

/-- A command keeps INIT_DONE, or is INIT and sets it. -/
theorem Ends.initDone {i : Instr} {s t : State} (he : Ends i s t) :
    t.initDone = s.initDone ∨ (i = .init ∧ t.initDone = true) := by
  have hframe : ∀ {u : State}, t = u → u.initDone = s.initDone → t.initDone = s.initDone := fun htu hu => htu ▸ hu
  cases i with
  | init =>
    cases he with
    | init => exact .inr ⟨rfl, rfl⟩
    | rejected | failedBuild | initAgain => exact .inl rfl
    | field _ hformat => exact absurd hformat nofun
  | _ => exact .inl (hframe he.frame rfl)

/-- Whatever the word, BUSY is 0 after the completion point (R103). -/
theorem runCommand_idle {s t : State} (h : runCommand s = .next t) : t.running = none := by
  obtain ⟨i, -, hexec⟩ | ⟨e, -, rfl⟩ := runCommand_cases h
  · exact (exec_ends hexec).idle
  · rfl

theorem runCommand_initDone {s t : State} (h : runCommand s = .next t) :
    t.initDone = s.initDone ∨ (decode s.cmd = .ok .init ∧ t.initDone = true) := by
  obtain ⟨i, hdec, hexec⟩ | ⟨e, -, rfl⟩ := runCommand_cases h
  · exact (exec_ends hexec).initDone.imp_right fun ⟨hi, hd⟩ => ⟨hi ▸ hdec, hd⟩
  · exact .inl rfl

/-- With a legal configuration INIT's only ends are its success and its end where INIT_DONE = 1 already. -/
theorem execInit_initDone {s t : State} (hsizes : SizesOk s) (hprim : Primitive s.cfgPrim)
    (h : execInit s = .next t) : t.initDone = true := by
  obtain ⟨hd, rfl⟩ | ⟨-, hcfg, -⟩ | ⟨-, -, htab, -⟩ | ⟨-, -, tab, -, rfl⟩ := execInit_cases h
  · exact hd
  · exact absurd ((cfgLegal_iff s).mpr hsizes) (ne_true_of_eq_false hcfg)
  · exact absurd hprim (buildTables_eq_none_iff.mp htab)
  · rfl

theorem sizesOk_of_setup_eq {s u : State} (h : u.setup = s.setup) : SizesOk u ↔ SizesOk s := by
  obtain ⟨hbuild, -, hn, hnpar, -⟩ := State.setup_eq_iff.mp h
  rw [SizesOk, SizesOk, hbuild, hn, hnpar]

/-! ### The three states (R352) -/

/-- The state of R352 a core is in while BUSY = 0: Ready after INIT, Uninitialized before. -/
def State.restPhase (s : State) : Phase := if s.initDone then .ready else .uninitialized

theorem State.phase_of_busy {s : State} (h : s.busy = true) : s.phase = .busy := if_pos h

theorem State.phase_of_idle {s : State} (h : s.running = none) : s.phase = s.restPhase :=
  if_neg (ne_true_of_eq_false (congrArg Option.isSome h))

theorem State.running_of_phase_ne_busy {s : State} (h : s.phase ≠ .busy) : s.running = none :=
  Option.not_isSome_iff_eq_none.mp fun hbusy => h (State.phase_of_busy hbusy)

theorem State.phase_of_initDone {s : State} (hidle : s.running = none) (hd : s.initDone = true) : s.phase = .ready :=
  (State.phase_of_idle hidle).trans (if_pos hd)

/-- Where INIT_DONE stays, the core is Busy or in the state that INIT_DONE gives. -/
theorem State.phase_of_initDone_eq {s t : State} (h : t.initDone = s.initDone) :
    t.phase = .busy ∨ t.phase = s.restPhase := by
  have hrest : t.restPhase = s.restPhase := by rw [State.restPhase, State.restPhase, h]
  by_cases hbusy : t.phase = .busy
  · exact .inl hbusy
  · exact .inr ((State.phase_of_idle (State.running_of_phase_ne_busy hbusy)).trans hrest)

/-- A cycle without reset leads to Busy, or to the state that INIT_DONE gives, or, at INIT's completion point, to Ready. -/
theorem step_phase {s t : State} (hrst : NoRst s) (h : step s = .next t) :
    t.phase = .busy ∨ t.phase = s.restPhase ∨ (s.phase = .busy ∧ decode s.cmd = .ok .init ∧ t.phase = .ready) := by
  obtain ⟨rest, hpending, -⟩ | ⟨-, hstep⟩ := step_cases s
  · exact absurd hpending (hrst rest)
  · obtain ⟨-, rfl⟩ | ⟨hwas, hrun⟩ | ⟨k, -, rfl⟩ := engineCycle_cases (hstep ▸ h)
    · exact (State.phase_of_initDone_eq (afterHost_initDone s)).imp_right .inl
    · have hbusy : s.busy = true := congrArg Option.isSome hwas
      obtain hkeep | ⟨hdec, hd⟩ := runCommand_initDone hrun
      · exact (State.phase_of_initDone_eq (hkeep.trans (afterHost_initDone s))).imp_right .inl
      · exact .inr (.inr ⟨State.phase_of_busy hbusy, afterHost_cmd_of_busy hbusy ▸ hdec,
          State.phase_of_initDone (runCommand_idle hrun) hd⟩)
    · exact .inl rfl

/-- From a state with BUSY = 0 a cycle without reset stays there or leads to Busy. -/
theorem step_phase_of_idle {s t : State} (hrst : NoRst s) (h : step s = .next t) (hphase : s.phase ≠ .busy) :
    t.phase = s.phase ∨ t.phase = .busy := by
  obtain hbusy | hrest | ⟨hbusy, -⟩ := step_phase hrst h
  · exact .inr hbusy
  · exact .inl (hrest.trans (State.phase_of_idle (State.running_of_phase_ne_busy hphase)).symm)
  · exact absurd hbusy hphase

/-- INIT at its completion point with a legal configuration leads to Ready, whatever the host does in that cycle: the
event before it leaves INIT's word and the configuration alone. -/
theorem step_phase_of_init {s t : State} (hrst : NoRst s) (hrun : s.running = some 0) (hdec : decode s.cmd = .ok .init)
    (hsizes : SizesOk s) (hprim : Primitive s.cfgPrim) (h : step s = .next t) : t.phase = .ready := by
  have hbusy : s.busy = true := congrArg Option.isSome hrun
  have hset := afterHost_setup_of_busy hbusy
  obtain ⟨rest, hpending, -⟩ | ⟨-, hstep⟩ := step_cases s
  · exact absurd hpending (hrst rest)
  · rw [hstep, engineCycle_decoded hrun (by rwa [afterHost_cmd_of_busy hbusy])] at h
    have hprim' : Primitive s.afterHost.cfgPrim := by
      rwa [show s.afterHost.cfgPrim = s.cfgPrim from congrArg Setup.cfgPrim hset]
    exact State.phase_of_initDone (exec_ends h).idle
      (execInit_initDone ((sizesOk_of_setup_eq hset).mpr hsizes) hprim' h)

/-- Settles O11: a cycle with rst leaves INIT_DONE = 0 and BUSY = 0, an accepted CMD write raises BUSY, and the other
cycles go where `step_phase` says. -/
theorem phaseMachine : Obligations.PhaseMachine := by
  intro s t h
  refine ⟨fun ⟨rest, hpending⟩ => ?_, fun w rest hphase hw => ?_,
    fun hrst hrun hdec hsizes hprim => step_phase_of_init hrst hrun hdec hsizes hprim h,
    fun hrst => ⟨fun hphase => ?_, fun hphase => ?_, fun _ => ?_⟩⟩
  · obtain ⟨rest', -, hstep⟩ | ⟨hrst, -⟩ := step_cases s
    · obtain rfl := Host.Outcome.next.inj (hstep.symm.trans h)
      rfl
    · exact absurd hpending (hrst rest)
  · have hstep := step_write_idle (State.running_of_phase_ne_busy hphase) rfl hw
    obtain rfl := Host.Outcome.next.inj (hstep.symm.trans h)
    rfl
  · exact hphase ▸ step_phase_of_idle hrst h (hphase ▸ nofun)
  · exact hphase ▸ step_phase_of_idle hrst h (hphase ▸ nofun)
  · exact (step_phase hrst h).imp_right (.imp_right And.right)

end Sys2Proof.Machine
end
